-- ==== Sys2Proof/Word.lean ====
section
/-! DEFINITION. The word types of PseudoRandom CORE (spec/00_scope.md R5, R7, R8).

The primitives of R8 are the core operators on `Word`, all unsigned and wrapping: `add64` is `+`, `mul64` is `*`,
`xor` is `^^^`, `or` is `|||`, `shl64` is `<<<` and `shr64` is the logical `>>>`. `rotl64` has a definition of its own
in Machine/Ops.lean. -/

namespace Sys2Proof

/-- `u64`: 64 bits, bit 0 the least significant, denoting a number in `[0, 2^64)` (R7). -/
abbrev Word := BitVec 64

/-- The 32-bit command word `cw` (spec/30_encoding.md R41). -/
abbrev CmdWord := BitVec 32

end Sys2Proof
end

