-- ==== Sys2Proof/Syntax.lean ====
section
/-! DEFINITION. The commands of CORE (spec/30_encoding.md R40, R46, R48): requests as the host presents them, and one
constructor per row of spec/opcode_table.json. The operand count of a command is part of its type (R50). -/

namespace Sys2Proof

/-- The pair state `(s0, s1)` (spec/10_state.md R12). -/
structure PairWords where
  s0 : Word
  s1 : Word
  deriving DecidableEq, Repr

/-- The quad state `(s0, s1, s2, s3)` (R13). -/
structure QuadWords where
  s0 : Word
  s1 : Word
  s2 : Word
  s3 : Word
  deriving DecidableEq, Repr

/-- The octet state `(s0..s7)` (R14). -/
structure OctWords where
  s0 : Word
  s1 : Word
  s2 : Word
  s3 : Word
  s4 : Word
  s5 : Word
  s6 : Word
  s7 : Word
  deriving DecidableEq, Repr

/-- The sixteen array words, by physical index (R15). -/
abbrev ArrWords := Vector Word 16

/-- A request `(cw, ops)`: the command word and the operand words, `ops[0]` first (R40). -/
structure Request where
  cw : CmdWord
  ops : List Word
  deriving DecidableEq, Repr

/-- The 35 commands (R48), with their operands in the order of R46. -/
inductive Instr where
  | rotl (x k : Word)
  | smInit (state : Word)
  | smNext
  | smEq (state : Word)
  | pairInit (w : PairWords)
  | pairSeed (seed : Word)
  | pairHost
  | pairNextP
  | pairNextPP
  | pairNextSS
  | pairEq (w : PairWords)
  | arrInit (p : Word) (a : ArrWords)
  | arrSeed (seed : Word)
  | arrHost
  | arrNextSS
  | arrNextS
  | arrEq (a : ArrWords)
  | quadInit (w : QuadWords)
  | quadSeed (seed : Word)
  | quadHost
  | quadNextP
  | quadNextPP
  | quadNextSS
  | quadEq (w : QuadWords)
  | octInit (w : OctWords)
  | octSeed (seed : Word)
  | octHost
  | octNextP
  | octNextPP
  | octNextSS
  | octEq (w : OctWords)
  | entInit (domain : Word)
  | entAdd (v : Word)
  | entEntropy
  | entEfficiency
  deriving DecidableEq, Repr

/-- The four classes that have an `X.NEW` (R53). -/
inductive GenClass where
  | pair
  | arr
  | quad
  | oct
  deriving DecidableEq, Repr

/-- The two pseudo-instructions (R53): the host's assembler expands them, CORE never sees one. -/
inductive Pseudo where
  | entAddn (vs : List Word)
  | new (c : GenClass)
  deriving DecidableEq, Repr

end Sys2Proof
end

