-- ==== Sys2Proof/WellFormed.lean ====
section
/-! DEFINITION. When a request is a command of CORE, read off the field tables of spec/30_encoding.md (R41 to R46, R49,
R50), independently of the decoder's list of 35 words. A value of `Instr` needs no check: its type fixes the operand
count and admits every operand word (R47). -/

namespace Sys2Proof

/-- `UNIT`, bits 31:24 (R41). -/
def Request.unit (r : Request) : BitVec 8 := r.cw.extractLsb' 24 8

/-- `FN`, bits 23:16 (R41). -/
def Request.fn (r : Request) : BitVec 8 := r.cw.extractLsb' 16 8

/-- `SCR`, bits 15:8 (R41). -/
def Request.scr (r : Request) : BitVec 8 := r.cw.extractLsb' 8 8

/-- `ZERO`, bits 7:0 (R41). -/
def Request.zero (r : Request) : BitVec 8 := r.cw.extractLsb' 0 8

/-- R43: the units that exist. -/
def unitLegal (unit : BitVec 8) : Bool := 1#8 ≤ unit && unit ≤ 7#8

/-- R43: PAIR, ARR, QUAD and OCT are the units 03 to 06. -/
def unitIsGenerator (unit : BitVec 8) : Bool := 3#8 ≤ unit && unit ≤ 6#8

/-- R44: the functions a unit has. -/
def fnLegal (unit fn : BitVec 8) : Bool :=
  if unit = 1#8 then fn = 0#8
  else if unit = 2#8 then fn = 0#8 || fn = 3#8 || fn = 4#8
  else if unit = 7#8 then fn ≤ 3#8
  else fn ≤ 4#8

/-- R45: the scramble selectors a NEXT of a generator unit has, and 00 in every other command. -/
def scrLegal (unit fn scr : BitVec 8) : Bool :=
  if unitIsGenerator unit && fn = 3#8 then
    if unit = 4#8 then scr = 2#8 || scr = 3#8 else scr ≤ 2#8
  else scr = 0#8

/-- R46: how many operands a command of this unit and function carries. -/
def fieldArity (unit fn : BitVec 8) : Nat :=
  let stateWords := if unit = 3#8 then 2 else if unit = 4#8 then 16 else if unit = 5#8 then 4 else 8
  if unit = 1#8 then 2
  else if unit = 2#8 then (if fn = 3#8 then 0 else 1)
  else if unit = 7#8 then (if fn ≤ 1#8 then 1 else 0)
  else if fn = 0#8 then (if unit = 4#8 then 17 else stateWords)
  else if fn = 1#8 then 1
  else if fn = 4#8 then stateWords
  else 0

/-- The command word's fields are legal together (R49). -/
def Request.wordLegal (r : Request) : Bool :=
  unitLegal r.unit && fnLegal r.unit r.fn && scrLegal r.unit r.fn r.scr && r.zero = 0#8

/-- A request CORE executes as a command: a legal word (R49) with the right operand count (R50). -/
def Request.wellFormed (r : Request) : Bool :=
  r.wordLegal && r.ops.length = fieldArity r.unit r.fn

end Sys2Proof
end

