-- ==== Sys2Proof/Decode.lean ====
section
/-! DEFINITION. The encoding of the 35 commands and its decoder, total on every request (spec/30_encoding.md R40 to R53).
The table of words is R48; the operand counts are R46. -/

namespace Sys2Proof

/-- The 35 commands without their operands, in the order of R48. -/
inductive Opcode where
  | rotl
  | smInit
  | smNext
  | smEq
  | pairInit
  | pairSeed
  | pairHost
  | pairNextP
  | pairNextPP
  | pairNextSS
  | pairEq
  | arrInit
  | arrSeed
  | arrHost
  | arrNextSS
  | arrNextS
  | arrEq
  | quadInit
  | quadSeed
  | quadHost
  | quadNextP
  | quadNextPP
  | quadNextSS
  | quadEq
  | octInit
  | octSeed
  | octHost
  | octNextP
  | octNextPP
  | octNextSS
  | octEq
  | entInit
  | entAdd
  | entEntropy
  | entEfficiency
  deriving DecidableEq, Repr

/-- R48, column `cw`. -/
def Opcode.word : Opcode → CmdWord
  | .rotl => 0x01000000#32
  | .smInit => 0x02000000#32
  | .smNext => 0x02030000#32
  | .smEq => 0x02040000#32
  | .pairInit => 0x03000000#32
  | .pairSeed => 0x03010000#32
  | .pairHost => 0x03020000#32
  | .pairNextP => 0x03030000#32
  | .pairNextPP => 0x03030100#32
  | .pairNextSS => 0x03030200#32
  | .pairEq => 0x03040000#32
  | .arrInit => 0x04000000#32
  | .arrSeed => 0x04010000#32
  | .arrHost => 0x04020000#32
  | .arrNextSS => 0x04030200#32
  | .arrNextS => 0x04030300#32
  | .arrEq => 0x04040000#32
  | .quadInit => 0x05000000#32
  | .quadSeed => 0x05010000#32
  | .quadHost => 0x05020000#32
  | .quadNextP => 0x05030000#32
  | .quadNextPP => 0x05030100#32
  | .quadNextSS => 0x05030200#32
  | .quadEq => 0x05040000#32
  | .octInit => 0x06000000#32
  | .octSeed => 0x06010000#32
  | .octHost => 0x06020000#32
  | .octNextP => 0x06030000#32
  | .octNextPP => 0x06030100#32
  | .octNextSS => 0x06030200#32
  | .octEq => 0x06040000#32
  | .entInit => 0x07000000#32
  | .entAdd => 0x07010000#32
  | .entEntropy => 0x07020000#32
  | .entEfficiency => 0x07030000#32

/-- R46: how many operand words the command carries. -/
def Opcode.arity : Opcode → Nat
  | .rotl => 2
  | .smInit => 1
  | .smNext => 0
  | .smEq => 1
  | .pairInit => 2
  | .pairSeed => 1
  | .pairHost => 0
  | .pairNextP => 0
  | .pairNextPP => 0
  | .pairNextSS => 0
  | .pairEq => 2
  | .arrInit => 17
  | .arrSeed => 1
  | .arrHost => 0
  | .arrNextSS => 0
  | .arrNextS => 0
  | .arrEq => 16
  | .quadInit => 4
  | .quadSeed => 1
  | .quadHost => 0
  | .quadNextP => 0
  | .quadNextPP => 0
  | .quadNextSS => 0
  | .quadEq => 4
  | .octInit => 8
  | .octSeed => 1
  | .octHost => 0
  | .octNextP => 0
  | .octNextPP => 0
  | .octNextSS => 0
  | .octEq => 8
  | .entInit => 1
  | .entAdd => 1
  | .entEntropy => 0
  | .entEfficiency => 0

/-- R48, column `mnemonic` (the upper-case spelling of R52). -/
def Opcode.mnemonic : Opcode → String
  | .rotl => "ROTL"
  | .smInit => "SM.INIT"
  | .smNext => "SM.NEXT"
  | .smEq => "SM.EQ"
  | .pairInit => "PAIR.INIT"
  | .pairSeed => "PAIR.SEED"
  | .pairHost => "PAIR.HOST"
  | .pairNextP => "PAIR.NEXT.P"
  | .pairNextPP => "PAIR.NEXT.PP"
  | .pairNextSS => "PAIR.NEXT.SS"
  | .pairEq => "PAIR.EQ"
  | .arrInit => "ARR.INIT"
  | .arrSeed => "ARR.SEED"
  | .arrHost => "ARR.HOST"
  | .arrNextSS => "ARR.NEXT.SS"
  | .arrNextS => "ARR.NEXT.S"
  | .arrEq => "ARR.EQ"
  | .quadInit => "QUAD.INIT"
  | .quadSeed => "QUAD.SEED"
  | .quadHost => "QUAD.HOST"
  | .quadNextP => "QUAD.NEXT.P"
  | .quadNextPP => "QUAD.NEXT.PP"
  | .quadNextSS => "QUAD.NEXT.SS"
  | .quadEq => "QUAD.EQ"
  | .octInit => "OCT.INIT"
  | .octSeed => "OCT.SEED"
  | .octHost => "OCT.HOST"
  | .octNextP => "OCT.NEXT.P"
  | .octNextPP => "OCT.NEXT.PP"
  | .octNextSS => "OCT.NEXT.SS"
  | .octEq => "OCT.EQ"
  | .entInit => "ENT.INIT"
  | .entAdd => "ENT.ADD"
  | .entEntropy => "ENT.ENTROPY"
  | .entEfficiency => "ENT.EFFICIENCY"

/-- Every command, in the order of R48. -/
def Opcode.all : List Opcode :=
  [.rotl, .smInit, .smNext, .smEq, .pairInit, .pairSeed, .pairHost] ++
  [.pairNextP, .pairNextPP, .pairNextSS, .pairEq, .arrInit, .arrSeed, .arrHost] ++
  [.arrNextSS, .arrNextS, .arrEq, .quadInit, .quadSeed, .quadHost, .quadNextP] ++
  [.quadNextPP, .quadNextSS, .quadEq, .octInit, .octSeed, .octHost, .octNextP] ++
  [.octNextPP, .octNextSS, .octEq, .entInit, .entAdd, .entEntropy, .entEfficiency]

/-- R49: the command a word names, `none` for every word that is not one of the 35. -/
def Opcode.ofWord? (cw : CmdWord) : Option Opcode := Opcode.all.find? (fun o => o.word == cw)

/-- The command an instruction is. -/
def Instr.opcode : Instr → Opcode
  | .rotl _ _ => .rotl
  | .smInit _ => .smInit
  | .smNext => .smNext
  | .smEq _ => .smEq
  | .pairInit _ => .pairInit
  | .pairSeed _ => .pairSeed
  | .pairHost => .pairHost
  | .pairNextP => .pairNextP
  | .pairNextPP => .pairNextPP
  | .pairNextSS => .pairNextSS
  | .pairEq _ => .pairEq
  | .arrInit _ _ => .arrInit
  | .arrSeed _ => .arrSeed
  | .arrHost => .arrHost
  | .arrNextSS => .arrNextSS
  | .arrNextS => .arrNextS
  | .arrEq _ => .arrEq
  | .quadInit _ => .quadInit
  | .quadSeed _ => .quadSeed
  | .quadHost => .quadHost
  | .quadNextP => .quadNextP
  | .quadNextPP => .quadNextPP
  | .quadNextSS => .quadNextSS
  | .quadEq _ => .quadEq
  | .octInit _ => .octInit
  | .octSeed _ => .octSeed
  | .octHost => .octHost
  | .octNextP => .octNextP
  | .octNextPP => .octNextPP
  | .octNextSS => .octNextSS
  | .octEq _ => .octEq
  | .entInit _ => .entInit
  | .entAdd _ => .entAdd
  | .entEntropy => .entEntropy
  | .entEfficiency => .entEfficiency

def PairWords.toList (w : PairWords) : List Word := [w.s0, w.s1]

def QuadWords.toList (w : QuadWords) : List Word := [w.s0, w.s1, w.s2, w.s3]

def OctWords.toList (w : OctWords) : List Word := [w.s0, w.s1, w.s2, w.s3, w.s4, w.s5, w.s6, w.s7]

/-- The operand words an instruction carries, `ops[0]` first (R46). -/
def Instr.operands : Instr → List Word
  | .rotl x k => [x, k]
  | .smInit state => [state]
  | .smNext => []
  | .smEq state => [state]
  | .pairInit w => w.toList
  | .pairSeed seed => [seed]
  | .pairHost => []
  | .pairNextP => []
  | .pairNextPP => []
  | .pairNextSS => []
  | .pairEq w => w.toList
  | .arrInit p a => p :: a.toList
  | .arrSeed seed => [seed]
  | .arrHost => []
  | .arrNextSS => []
  | .arrNextS => []
  | .arrEq a => a.toList
  | .quadInit w => w.toList
  | .quadSeed seed => [seed]
  | .quadHost => []
  | .quadNextP => []
  | .quadNextPP => []
  | .quadNextSS => []
  | .quadEq w => w.toList
  | .octInit w => w.toList
  | .octSeed seed => [seed]
  | .octHost => []
  | .octNextP => []
  | .octNextPP => []
  | .octNextSS => []
  | .octEq w => w.toList
  | .entInit domain => [domain]
  | .entAdd v => [v]
  | .entEntropy => []
  | .entEfficiency => []

/-- The request of an instruction: its command word (R41, R48) and its operands (R46). -/
def encode (i : Instr) : Request := { cw := i.opcode.word, ops := i.operands }

def PairWords.ofList? : List Word → Option PairWords
  | [s0, s1] => some { s0, s1 }
  | _ => none

def QuadWords.ofList? : List Word → Option QuadWords
  | [s0, s1, s2, s3] => some { s0, s1, s2, s3 }
  | _ => none

def OctWords.ofList? : List Word → Option OctWords
  | [s0, s1, s2, s3, s4, s5, s6, s7] => some { s0, s1, s2, s3, s4, s5, s6, s7 }
  | _ => none

def ArrWords.ofList? (ws : List Word) : Option ArrWords :=
  if h : ws.length = 16 then some { toArray := ws.toArray, size_toArray := by simpa using h } else none

/-- The instruction itself where it carries no operand (R46). -/
def noOperand (i : Instr) : List Word → Option Instr
  | [] => some i
  | _ => none

/-- The instruction of one operand (R46). -/
def oneOperand (f : Word → Instr) : List Word → Option Instr
  | [a] => some (f a)
  | _ => none

/-- The instruction of two operands (R46). -/
def twoOperands (f : Word → Word → Instr) : List Word → Option Instr
  | [a, b] => some (f a b)
  | _ => none

/-- ARR.INIT: the pointer first, then the sixteen words (R46, R76). -/
def arrInitOperands : List Word → Option Instr
  | p :: ws => (ArrWords.ofList? ws).map (Instr.arrInit p)
  | [] => none

/-- The instruction of a command and its operand words, `none` when their number is not the one of R46 (R50). -/
def Opcode.build? : Opcode → List Word → Option Instr
  | .rotl, ops => twoOperands .rotl ops
  | .smInit, ops => oneOperand .smInit ops
  | .smNext, ops => noOperand .smNext ops
  | .smEq, ops => oneOperand .smEq ops
  | .pairInit, ops => (PairWords.ofList? ops).map .pairInit
  | .pairSeed, ops => oneOperand .pairSeed ops
  | .pairHost, ops => noOperand .pairHost ops
  | .pairNextP, ops => noOperand .pairNextP ops
  | .pairNextPP, ops => noOperand .pairNextPP ops
  | .pairNextSS, ops => noOperand .pairNextSS ops
  | .pairEq, ops => (PairWords.ofList? ops).map .pairEq
  | .arrInit, ops => arrInitOperands ops
  | .arrSeed, ops => oneOperand .arrSeed ops
  | .arrHost, ops => noOperand .arrHost ops
  | .arrNextSS, ops => noOperand .arrNextSS ops
  | .arrNextS, ops => noOperand .arrNextS ops
  | .arrEq, ops => (ArrWords.ofList? ops).map .arrEq
  | .quadInit, ops => (QuadWords.ofList? ops).map .quadInit
  | .quadSeed, ops => oneOperand .quadSeed ops
  | .quadHost, ops => noOperand .quadHost ops
  | .quadNextP, ops => noOperand .quadNextP ops
  | .quadNextPP, ops => noOperand .quadNextPP ops
  | .quadNextSS, ops => noOperand .quadNextSS ops
  | .quadEq, ops => (QuadWords.ofList? ops).map .quadEq
  | .octInit, ops => (OctWords.ofList? ops).map .octInit
  | .octSeed, ops => oneOperand .octSeed ops
  | .octHost, ops => noOperand .octHost ops
  | .octNextP, ops => noOperand .octNextP ops
  | .octNextPP, ops => noOperand .octNextPP ops
  | .octNextSS, ops => noOperand .octNextSS ops
  | .octEq, ops => (OctWords.ofList? ops).map .octEq
  | .entInit, ops => oneOperand .entInit ops
  | .entAdd, ops => oneOperand .entAdd ops
  | .entEntropy, ops => noOperand .entEntropy ops
  | .entEfficiency, ops => noOperand .entEfficiency ops

/-- Why a request is no command; both are answered `ILLEGAL_COMMAND` (R134). -/
inductive DecodeError where
  /-- The word is not one of the 35 (R49). -/
  | illegalWord
  /-- A legal word with another number of operands than R46 gives it (R50). -/
  | operandCount
  deriving DecidableEq, Repr

/-- The decoder, total on every request: illegal word first, then wrong operand count (R138 item 2). -/
def decode (r : Request) : Except DecodeError Instr :=
  match Opcode.ofWord? r.cw with
  | none => .error .illegalWord
  | some o =>
    match o.build? r.ops with
    | none => .error .operandCount
    | some i => .ok i

/-- The request whose bits are `w`, numbered from bit 0 of the command word on, each operand word after the word
before it; bits from `nbits` up are 0, and there are as many operands as R46 gives the word (log entry 14). -/
def requestOfTableWord (nbits w : Nat) : Request :=
  let bits := w % 2 ^ nbits
  let cw : CmdWord := BitVec.ofNat 32 bits
  let n := ((Opcode.ofWord? cw).map Opcode.arity).getD 0
  { cw := cw, ops := (List.range n).map (fun i => BitVec.ofNat 64 (bits >>> (32 + 64 * i))) }

/-- What the decoder reads from an instruction whose bits are `w` as spec/opcode_table.json numbers them. -/
def decodeTableWord (nbits w : Nat) : Option Instr := (decode (requestOfTableWord nbits w)).toOption

/-- R53: the commands a pseudo-instruction stands for, in order. -/
def Pseudo.expand : Pseudo → List Instr
  | .entAddn vs => vs.map Instr.entAdd
  | .new .pair => [.pairHost]
  | .new .arr => [.arrHost]
  | .new .quad => [.quadHost]
  | .new .oct => [.octHost]

/-- R51: a transaction's total length in bits. -/
def Request.bitLength (r : Request) : Nat := 32 + 64 * r.ops.length

/-- An operand of a listing: a hexadecimal literal (R52). -/
def operandText (w : Word) : String := "0x" ++ String.ofList (Nat.toDigits 16 w.toNat)

/-- R52: the listing line of a command, mnemonic first, then the operands separated by commas. -/
def Instr.listing (i : Instr) : String :=
  i.opcode.mnemonic ++
    (if i.operands = [] then "" else " " ++ String.intercalate ", " (i.operands.map operandText))

end Sys2Proof
end

