-- ==== Sys2Proof/Config.lean ====
section
/-! DEFINITION. What an implementation of CORE fixes (the open parameters of spec/00_scope.md R6 and of
spec/92_eei_decisions.md, "Parameters left open") and the free values, which have no body: nothing in Lean can evaluate
one, so whatever is proved of one holds for every value. -/

namespace Sys2Proof

/-- Which `PTR_MAP : u64 -> [0,16)` turns an expander word into the pointer (R68, D12). -/
inductive PtrMapChoice where
  /-- The default `PTR_MAP(w) = w >> 60`. -/
  | topFour
  /-- Any other map: `Config.ptrMapOther`, of which nothing is assumed. -/
  | other
  deriving DecidableEq, Repr

/-- Which `ENT_NUMERICS` evaluates the scores in binary64 (R121, D21). -/
inductive NumericsChoice where
  /-- The reference evaluation of R121. -/
  | reference
  /-- Any other pair of total functions of `(ENT.D, ENT.T)`: `Config.entropyOther`, `Config.efficiencyOther`. -/
  | other
  deriving DecidableEq, Repr

/-- The open parameters one CORE is built with. Log entry 8: they stand in the state as plain data that no step writes,
so that a statement about every state is a statement about every choice of them. -/
structure Params where
  /-- `SM_SHIFT1`, in `[1, 63]`, default 30 (R58, G2). -/
  smShift1 : Nat
  /-- `SM_SHIFT2`, in `[1, 63]`, default 27 (R58, G2). -/
  smShift2 : Nat
  ptrMap : PtrMapChoice
  /-- `ENT_CAPACITY`: how many distinct keys the table holds, `none` for unbounded (R128, D20). -/
  entCapacity : Option Nat
  numerics : NumericsChoice
  deriving DecidableEq, Repr

/-- The values this spec gives the open parameters by default (R6). -/
def Params.default : Params :=
  { smShift1 := 30, smShift2 := 27, ptrMap := .topFour, entCapacity := none, numerics := .reference }

/-- The range R58 and D12 allow: the two round shift amounts lie in `[1, 63]`. -/
abbrev Params.wf (p : Params) : Prop :=
  (1 ≤ p.smShift1 ∧ p.smShift1 ≤ 63) ∧ (1 ≤ p.smShift2 ∧ p.smShift2 ≤ 63)

/-- FREE VALUE. The word the host randomness source supplies at the n-th draw when none is queued (R25, D15; log entry 5). -/
opaque Config.hrandWord : Nat → Word

/-- FREE VALUE. `ANY64`, the word ROTL answers for an amount outside `0 < k < 64`, fresh per draw (R57, D24; log entry 6). -/
opaque Config.any64 : Nat → Word

/-- FREE VALUE. `ANYF64`, the score of an estimator without observations, fresh per draw (R124, D23; log entry 7). -/
opaque Config.anyF64 : Nat → Word

/-- FREE VALUE. A `PTR_MAP` other than the default (R68, D12; log entry 8). -/
opaque Config.ptrMapOther : Word → BitVec 4

/-- FREE VALUE. An `ENT_NUMERICS.entropy` other than the reference evaluation (R121, D21; log entry 8). -/
opaque Config.entropyOther : BitVec 63 → List (Word × Word) → Word

/-- FREE VALUE. An `ENT_NUMERICS.efficiency` other than the reference evaluation (R121, D21; log entry 8). -/
opaque Config.efficiencyOther : BitVec 63 → List (Word × Word) → Word

/-- FREE VALUE. `log2_f64` of a binary64 pattern that is not a power of two (R121; log entry 9). -/
opaque Config.log2Other : Word → Word

/-- FREE VALUE. The sign and payload of a NaN that the reference evaluation of `(ENT.D, ENT.T)` yields (R125; log entry 9). -/
opaque Config.nanBits : BitVec 63 → List (Word × Word) → Word

end Sys2Proof
end

