-- ==== Sys2Proof/Machine/State.lean ====
section
/-! DEFINITION. The state of CORE (spec/10_state.md R10) and the model's own fields: the host's side of the command
port, the latest response, the `HRAND` input, the counter of free values and the open parameters (INVENTORY.md). -/

namespace Sys2Proof.Machine

/-- Nothing raises one: every fault the spec describes is a fault ENTRY (spec/60_exceptions.md R133), which the model
takes as a next state with FAULT written and the response `(FAULT, C, none)`. Safe (log entry 15). -/
inductive Fault where
  deriving DecidableEq, Repr

/-- Why the model has no step. -/
inductive Refusal where
  /-- Answered by `exec` for an instruction that has no meaning yet; no instruction is left so. Safe. -/
  | notModelled (mnemonic : String)
  /-- Answered by `step` when the host presents two transactions at once, to which CORE gives no meaning
  (spec/20_memory.md R35, D27, U7, U16: refuse). Safe (log entry 13). -/
  | concurrentTransactions
  deriving DecidableEq, Repr

/-- SM: the SplitMix64 register and its valid bit (R17, R21). -/
structure SmUnit where
  x : Word
  v : Bool
  deriving DecidableEq, Repr

/-- PAIR: the two state words and the valid bit (R12, R21). -/
structure PairBank where
  s : PairWords
  v : Bool
  deriving DecidableEq, Repr

/-- ARR: the sixteen words, the rotation pointer and the valid bit (R15, R16, R21). -/
structure ArrBank where
  a : ArrWords
  p : BitVec 4
  v : Bool
  deriving DecidableEq, Repr

/-- QUAD: the four state words and the valid bit (R13, R21). -/
structure QuadBank where
  s : QuadWords
  v : Bool
  deriving DecidableEq, Repr

/-- OCT: the eight state words and the valid bit (R14, R21). -/
structure OctBank where
  s : OctWords
  v : Bool
  deriving DecidableEq, Repr

/-- A frequency table: `(key, count)` entries, in canonical form with the keys strictly rising (R23, R27; log entry 11). -/
abbrev Table := List (Word × Word)

/-- ENT: declared domain size, frequency table, running total and valid bit (R23, R21). -/
structure EntUnit where
  d : BitVec 63
  t : Table
  n : Word
  v : Bool
  deriving DecidableEq, Repr

/-- The FAULT register (R22). -/
structure FaultReg where
  halt : Bool
  cause : BitVec 8
  cw : CmdWord
  deriving DecidableEq, Repr

/-- The `status` field of a response (spec/30_encoding.md R42). -/
inductive Status where
  | ok
  | fault
  | halted
  deriving DecidableEq, Repr

/-- The response to a transaction (R42). -/
structure Response where
  status : Status
  cause : BitVec 8
  result : Option Word
  deriving DecidableEq, Repr

/-- What the host does at CORE's boundary (log entries 1, 4 and 13). -/
inductive HostEvent where
  /-- It presents one transaction (R40). -/
  | transaction (r : Request)
  /-- It asserts the reset input (R150). -/
  | reset
  /-- It presents two transactions at once (R35). -/
  | concurrent (r₁ r₂ : Request)
  deriving DecidableEq, Repr

/-- The state: R10's registers, then the model's own fields. -/
structure State where
  sm : SmUnit
  pair : PairBank
  arr : ArrBank
  quad : QuadBank
  oct : OctBank
  ent : EntUnit
  fault : FaultReg
  /-- Model: the events the host will present, the next one first (R19, R40). -/
  port : List HostEvent
  /-- Model: the response to the latest transaction (R42). -/
  response : Option Response
  /-- Model: words waiting at the `HRAND` input (R25). -/
  hrand : List Word
  /-- Model: how many free values have been drawn. -/
  draws : Nat
  /-- Model: the open parameters this CORE was built with; no step writes them. -/
  params : Params
  deriving DecidableEq, Repr

/-- The outcome of a step or of a command. -/
abbrev Result := Host.Outcome State Fault Refusal

/-- A CORE built with parameters `p`, right after reset (R28, R150): the valid bits and FAULT are clear. The data
registers are unspecified in the spec and hold 0 here (log entry 3). -/
def State.resetWith (p : Params) : State :=
  { sm := { x := 0, v := false }
    pair := { s := { s0 := 0, s1 := 0 }, v := false }
    arr := { a := #v[0, 0, 0, 0, 0, 0, 0, 0, 0, 0, 0, 0, 0, 0, 0, 0], p := 0, v := false }
    quad := { s := { s0 := 0, s1 := 0, s2 := 0, s3 := 0 }, v := false }
    oct := { s := { s0 := 0, s1 := 0, s2 := 0, s3 := 0, s4 := 0, s5 := 0, s6 := 0, s7 := 0 }, v := false }
    ent := { d := 0, t := [], n := 0, v := false }
    fault := { halt := false, cause := 0, cw := 0 }
    port := []
    response := none
    hrand := []
    draws := 0
    params := p }

/-- The machine right after reset, built with the default parameters (R28, R6). -/
def State.reset : State := State.resetWith Params.default

end Sys2Proof.Machine
end

