-- ==== Sys2Proof/Machine/Ops.lean ====
section
/-! DEFINITION. The named operations over CORE's registers: the one writer of each register group, answering and
faulting (spec/60_exceptions.md R133), reset (spec/70_reset_and_hazards.md R150), the rotation and SplitMix64
primitives, the seeded draws, the indexed access of ARR.A and the frequency table. -/

namespace Sys2Proof.Machine

/-! The one writer of each register group. -/

def State.setSm (s : State) (u : SmUnit) : State := { s with sm := u }
def State.setPair (s : State) (b : PairBank) : State := { s with pair := b }
def State.setArr (s : State) (b : ArrBank) : State := { s with arr := b }
def State.setQuad (s : State) (b : QuadBank) : State := { s with quad := b }
def State.setOct (s : State) (b : OctBank) : State := { s with oct := b }
def State.setEnt (s : State) (u : EntUnit) : State := { s with ent := u }
def State.setFault (s : State) (f : FaultReg) : State := { s with fault := f }
def State.setPort (s : State) (es : List HostEvent) : State := { s with port := es }
def State.setResponse (s : State) (r : Option Response) : State := { s with response := r }
def State.setHrand (s : State) (ws : List Word) : State := { s with hrand := ws }
def State.setDraws (s : State) (n : Nat) : State := { s with draws := n }

/-! Answering a transaction. -/

/-- `ok()` and `ok(v)` of spec/00_scope.md R8: the response `(OK, 0x00, result)` of R42. -/
def State.answer (s : State) (result : Option Word) : State :=
  s.setResponse (some { status := .ok, cause := 0x00#8, result := result })

/-- The `status` codes (R42); code 3 is never produced. -/
def Status.code : Status → BitVec 2
  | .ok => 0#2
  | .fault => 1#2
  | .halted => 2#2

/-- An EQ result: 1 or 0 (R42). -/
def boolWord (b : Bool) : Word := if b then 1 else 0

/-- The causes of a fault (R130). -/
inductive Cause where
  | invalidState
  | invalidPointer
  | invalidDomain
  | domainExceeded
  | illegalCommand
  | notConstructed
  | counterOverflow
  | tableFull
  deriving DecidableEq, Repr

/-- The cause codes (R130). -/
def Cause.code : Cause → BitVec 8
  | .invalidState => 0x01#8
  | .invalidPointer => 0x02#8
  | .invalidDomain => 0x03#8
  | .domainExceeded => 0x04#8
  | .illegalCommand => 0x10#8
  | .notConstructed => 0x11#8
  | .counterOverflow => 0x12#8
  | .tableFull => 0x13#8

/-- Every cause of R130. -/
def Cause.all : List Cause :=
  [.invalidState, .invalidPointer, .invalidDomain, .domainExceeded,
    .illegalCommand, .notConstructed, .counterOverflow, .tableFull]

/-- Fault entry (R133): `raise C` in the transaction whose command word is `cw`. FAULT is written, the response is
`(FAULT, C, none)`, and nothing else changes. -/
def State.raise (s : State) (c : Cause) (cw : CmdWord) : State :=
  (s.setFault { halt := true, cause := c.code, cw := cw }).setResponse
    (some { status := .fault, cause := c.code, result := none })

/-- R132: the answer of a halted CORE, `(HALTED, FAULT.CAUSE, none)`, with no other change. -/
def State.answerHalted (s : State) : State :=
  s.setResponse (some { status := .halted, cause := s.fault.cause, result := none })

/-- The reset input (R150): everything CORE holds becomes `State.reset`'s; what stands outside it (the rest of the
host's events, the randomness source) and the parameters stay. A data register's value is unspecified in the spec and is
the one `State.reset` names (log entries 3 and 4). -/
def State.assertReset (s : State) : State :=
  (((State.resetWith s.params).setPort s.port).setHrand s.hrand).setDraws s.draws

/-! Draws from the environment. -/

/-- One word from `HRAND` (R25): the next word queued at the input, else a free value. -/
def State.takeHrand (s : State) : Word × State :=
  match s.hrand with
  | w :: ws => (w, s.setHrand ws)
  | [] => (Config.hrandWord s.draws, s.setDraws (s.draws + 1))

/-- `ok(ANY64)` (R57): a fresh unconstrained word. -/
def State.answerAny64 (s : State) : State :=
  (s.setDraws (s.draws + 1)).answer (some (Config.any64 s.draws))

/-- `ok(ANYF64)` (R124): a fresh unconstrained word. -/
def State.answerAnyF64 (s : State) : State :=
  (s.setDraws (s.draws + 1)).answer (some (Config.anyF64 s.draws))

/-! The rotation and SplitMix64 primitives. -/

/-- `rotl64(x, k)` for `0 < k < 64` (R55). -/
def rotl64 (x : Word) (k : Nat) : Word := (x <<< k) ||| (x >>> (64 - k))

/-- The additive constant of SplitMix64 (R58). -/
def smGamma : Word := 0x9e3779b97f4a7c15#64

/-- The mixing of a SplitMix64 state word into the output word (R58); the shift amounts are parameters (log entry 8). -/
def smMix (p : Params) (x : Word) : Word :=
  let z := (x ^^^ (x >>> p.smShift1)) * 0xbf58476d1ce4e5b9#64
  let z := (z ^^^ (z >>> p.smShift2)) * 0x94d049bb133111eb#64
  z ^^^ (z >>> 31)

/-- The new state word of a step: the sum, not the mixed word (R58). -/
def smAdvance (x : Word) : Word := x + smGamma

/-- `sm_step` (R58): the new state word and the output word. -/
def smStep (p : Params) (x : Word) : Word × Word := (smAdvance x, smMix p (smAdvance x))

/-- The state of an expander that starts at `x`, after `n` words (R67). -/
def seedAdvance (x : Word) : Nat → Word
  | 0 => x
  | n + 1 => smAdvance (seedAdvance x n)

/-- The `i`-th word (from 0) an expander that starts at `x` yields (R67). -/
def seedWord (p : Params) (x : Word) (i : Nat) : Word := (smStep p (seedAdvance x i)).2

/-- `seed_words(n, x)` (R67): the words drawn, the first one first. -/
def seedWords (p : Params) (n : Nat) (x : Word) : List Word := (List.range n).map (seedWord p x)

/-- `seed_state(n, x)` as the loop of R69, cut off after `retries` further draws: each retry continues from the
expander state reached. The constructors below draw once, which R70 permits: the body runs exactly once (log entry 12). -/
def seedStateLoop (p : Params) (n : Nat) : Nat → Word → List Word
  | 0, x => seedWords p n x
  | retries + 1, x =>
    let ws := seedWords p n x
    if ws.all (fun w => w == 0) then seedStateLoop p n retries (seedAdvance x n) else ws

/-- `seed_state(2, x)`, the first word drawn in slot 0 (R67, R73). -/
def pairOfSeed (p : Params) (x : Word) : PairWords :=
  { s0 := seedWord p x 0, s1 := seedWord p x 1 }

/-- `seed_state(4, x)` (R67, R81). -/
def quadOfSeed (p : Params) (x : Word) : QuadWords :=
  { s0 := seedWord p x 0, s1 := seedWord p x 1, s2 := seedWord p x 2, s3 := seedWord p x 3 }

/-- `seed_state(8, x)` (R67, R85). -/
def octOfSeed (p : Params) (x : Word) : OctWords :=
  { s0 := seedWord p x 0, s1 := seedWord p x 1, s2 := seedWord p x 2, s3 := seedWord p x 3
    s4 := seedWord p x 4, s5 := seedWord p x 5, s6 := seedWord p x 6, s7 := seedWord p x 7 }

/-- `seed_state(16, x)` (R67, R77). -/
def arrOfSeed (p : Params) (x : Word) : ArrWords :=
  let w := seedWord p x
  #v[w 0, w 1, w 2, w 3, w 4, w 5, w 6, w 7, w 8, w 9, w 10, w 11, w 12, w 13, w 14, w 15]

/-- `PTR_MAP` (R68): by default the top four bits of the word. -/
def ptrMap (p : Params) (w : Word) : BitVec 4 :=
  match p.ptrMap with
  | .topFour => (w >>> 60).setWidth 4
  | .other => Config.ptrMapOther w

/-! The indexed access of ARR.A (R15, R96). -/

def arrGet (a : ArrWords) (i : BitVec 4) : Word := a[i.toNat]'i.isLt

def arrSet (a : ArrWords) (i : BitVec 4) (w : Word) : ArrWords := a.set i.toNat w i.isLt

/-! The frequency table (R23, R117), keys strictly rising. -/

/-- The table is in canonical form: the keys strictly rise and no count is 0 (R23, R24 (b)). -/
abbrev Table.wf (t : Table) : Prop :=
  t.Pairwise (fun e f => e.1 < f.1) ∧ ∀ e ∈ t, e.2 ≠ 0

/-- `v in ENT.T`. -/
def tableHas (t : Table) (v : Word) : Bool := t.any (fun e => e.1 == v)

/-- `ENT.T[v]`, 0 for a key that is not in the table. -/
def tableCount : Table → Word → Word
  | [], _ => 0
  | (k, c) :: t, v => if k = v then c else tableCount t v

/-- `ENT.T[v] <- ENT.T[v] + 1`, or `1` for a new key (R117). -/
def tableBump : Table → Word → Table
  | [], v => [(v, 1)]
  | (k, c) :: t, v =>
    if v = k then (k, c + 1) :: t
    else if v < k then (v, 1) :: (k, c) :: t
    else (k, c) :: tableBump t v

/-- The sum of the counts, as a number (R24 (a)). -/
def tableTotal (t : Table) : Nat := (t.map (fun e => e.2.toNat)).sum

end Sys2Proof.Machine
end

