-- ==== Sys2Proof/Machine/Flags.lean ====
section
/-! DEFINITION. The flags of CORE: one valid bit per unit (spec/10_state.md R21). There are no condition codes, carry or
overflow flags. A command that reads a unit first reads its valid bit (spec/60_exceptions.md R131, R138 item 3). -/

namespace Sys2Proof.Machine

/-- `if V = 0 then raise NOT_CONSTRUCTED`, else the rest of the command `o`. -/
def State.whenConstructed (s : State) (v : Bool) (o : Opcode) (rest : Result) : Result :=
  if v then rest else .next (s.raise .notConstructed o.word)

end Sys2Proof.Machine
end

