-- ==== Sys2Proof/Machine/Operands.lean ====
section
/-! DEFINITION. How the commands read their operand words (spec/30_encoding.md R47) and when raw state is valid
(spec/42_construction.md R65). Every operand is a plain `u64` but for the two forms below, `domain` and `p`; `k` of
ROTL is a full `u64` whose legal range is `0 < k < 64`. -/

namespace Sys2Proof.Machine

/-- ROTL's `k`: the amount where `0 < k < 64` (R56). -/
def rotAmount? (k : Word) : Option Nat :=
  if 0 < k.toNat ∧ k.toNat < 64 then some k.toNat else none

/-- ARR.INIT's `p`: a full 64-bit word compared with 16 as an unsigned number, then narrowed (R47 (b), R76). -/
def pointer? (p : Word) : Option (BitVec 4) :=
  if p.toNat < 16 then some (p.setWidth 4) else none

/-- ENT.INIT's `domain`: a signed 64-bit integer that must be positive, then held in 63 bits (R47 (a), R115). -/
def domain? (w : Word) : Option (BitVec 63) :=
  if 0 < w.toInt then some (w.setWidth 63) else none

/-- `valid_PAIR` (R65): not all zero. -/
def pairValid (w : PairWords) : Bool := !(w.toList.all (fun x => x == 0))

/-- `valid_QUAD` (R65). -/
def quadValid (w : QuadWords) : Bool := !(w.toList.all (fun x => x == 0))

/-- `valid_OCT` (R65). -/
def octValid (w : OctWords) : Bool := !(w.toList.all (fun x => x == 0))

/-- `valid_ARR` (R65), on the sixteen words only. -/
def arrValid (a : ArrWords) : Bool := !(a.toList.all (fun x => x == 0))

end Sys2Proof.Machine
end

