-- ==== Sys2Proof/Machine/Arr.lean ====
section
/-! DEFINITION. ARR, the 1024-bit array generator with rotating pointer (spec/44_array.md), and its construction and
comparison (spec/42_construction.md R76 to R79). -/

namespace Sys2Proof.Machine

/-- `p = (q + 1) & 15`: the 4-bit increment wraps (R96). -/
def arrNextPtr (q : BitVec 4) : BitVec 4 := q + 1

/-- `s0`: the word the scrambles use, read at the advanced pointer (R96). -/
def arrWord (b : ArrBank) : Word := arrGet b.a (arrNextPtr b.p)

/-- `arr_update` (R96): both writes and the pointer together (R99). -/
def arrUpdate (b : ArrBank) : ArrBank :=
  let q := b.p
  let p := arrNextPtr q
  let s0 := arrGet b.a p
  let t := arrGet b.a q ^^^ s0
  { b with a := arrSet (arrSet b.a q ((rotl64 s0 25 ^^^ t) ^^^ (t <<< 27))) p (rotl64 t 36), p := p }

/-- The shape of both ARR.NEXT commands (R97, R98). -/
def arrDraw (o : Opcode) (scramble : Word → Word) (s : State) : Result :=
  s.whenConstructed s.arr.v o
    (.next ((s.setArr (arrUpdate s.arr)).answer (some (scramble (arrWord s.arr)))))

/-- The bank takes seeded state: the pointer word is drawn first, the sixteen words after it (R68, R77). -/
def arrSeeded (seed : Word) (s : State) : State :=
  (s.setArr { a := arrOfSeed s.params (smStep s.params seed).1
              p := ptrMap s.params (smStep s.params seed).2
              v := true }).answer none

/-- ARR.INIT (R76): the pointer is checked before the words (R140). -/
def execArrInit (p : Word) (a : ArrWords) (s : State) : Result :=
  match pointer? p with
  | none => .next (s.raise .invalidPointer Opcode.arrInit.word)
  | some q =>
    if arrValid a then .next ((s.setArr { a := a, p := q, v := true }).answer none)
    else .next (s.raise .invalidState Opcode.arrInit.word)

/-- ARR.SEED (R77). -/
def execArrSeed (seed : Word) (s : State) : Result := .next (arrSeeded seed s)

/-- ARR.HOST (R78). -/
def execArrHost (s : State) : Result := .next (arrSeeded s.takeHrand.1 s.takeHrand.2)

/-- ARR.NEXT.SS (R98): `rotl(s0*5, 7) * 9`. -/
def execArrNextSS (s : State) : Result := arrDraw .arrNextSS (fun w => rotl64 (w * 5) 7 * 9) s

/-- ARR.NEXT.S (R97): `s0 * 0x9e3779b97f4a7c13`. -/
def execArrNextS (s : State) : Result := arrDraw .arrNextS (fun w => w * 0x9e3779b97f4a7c13#64) s

/-- ARR.EQ (R79): the sixteen words, not the pointer. -/
def execArrEq (a : ArrWords) (s : State) : Result :=
  s.whenConstructed s.arr.v .arrEq (.next (s.answer (some (boolWord (s.arr.a.toList == a.toList)))))

end Sys2Proof.Machine
end

