-- ==== Sys2Proof/Machine/Float64.lean ====
section
/-! DEFINITION. The binary64 arithmetic of ENT's results and the reference evaluation of `ENT_NUMERICS`
(spec/47_entropy.md R121; binary64 as spec/93_implementation_defined.md G7 gives it; log entries 9 and 16). Every
operation computes the exact number and rounds once, to nearest, ties to even. -/

namespace Sys2Proof.Machine

/-- What a binary64 pattern denotes: a finite value is `(-1)^neg * m * 2^e` exactly (G7). -/
inductive Float64 where
  | nan
  | inf (neg : Bool)
  | fin (neg : Bool) (m : Nat) (e : Int)
  deriving DecidableEq, Repr

/-- G7: sign bit 63, exponent bits 62:52 with bias 1023, fraction bits 51:0. -/
def f64Unpack (w : Word) : Float64 :=
  let neg := w.msb
  let ex := (w.extractLsb' 52 11).toNat
  let fr := (w.extractLsb' 0 52).toNat
  if ex = 2047 then (if fr = 0 then .inf neg else .nan)
  else if ex = 0 then .fin neg fr (-1074)
  else .fin neg (2 ^ 52 + fr) (ex - 1075)

/-- A pattern with the given magnitude bits and sign. -/
def f64WithSign (neg : Bool) (magnitude : Nat) : Word :=
  BitVec.ofNat 64 (magnitude + if neg then 2 ^ 63 else 0)

/-- The signed infinity. -/
def f64Inf (neg : Bool) : Word := f64WithSign neg 0x7ff0000000000000

/-- `fneg`: the sign bit flipped (R121). -/
def fneg (w : Word) : Word := w ^^^ 0x8000000000000000#64

/-- Some NaN (G7): the sign and the fraction are `raw`'s, a zero fraction made non-zero. -/
def nanOf (raw : Word) : Word :=
  let w := raw ||| 0x7ff0000000000000#64
  if w.extractLsb' 0 52 = 0 then w ||| 1 else w

/-- `num / den` (with `den > 0`) rounded to binary64, to nearest, ties to even. `k` is the exponent of the last place:
52 below the leading bit, at least -1074. A carry out of the significand runs into the exponent field by itself. -/
def f64Round (neg : Bool) (num den : Nat) : Word :=
  if num = 0 then f64WithSign neg 0
  else
    let d : Int := (num.log2 : Int) - (den.log2 : Int)
    let lead := if den <<< d.toNat ≤ num <<< (-d).toNat then d else d - 1
    let k := max (lead - 52) (-1074)
    let n := num <<< (-k).toNat
    let m := den <<< k.toNat
    let q := n / m
    let r := n % m
    let q := if m < 2 * r ∨ (2 * r = m ∧ q % 2 = 1) then q + 1 else q
    f64WithSign neg (min ((k + 1074).toNat * 2 ^ 52 + q) 0x7ff0000000000000)

/-- `(-1)^neg * m * 2^e` rounded to binary64. -/
def f64OfScaled (neg : Bool) (m : Nat) (e : Int) : Word :=
  f64Round neg (m <<< e.toNat) (1 <<< (-e).toNat)

/-- `f64_of_nat` (R121). -/
def f64OfNat (n : Nat) : Word := f64Round false n 1

/-- A whole number as binary64; 0 is `+0.0`. -/
def f64OfInt (i : Int) : Word := f64Round (i < 0) i.natAbs 1

/-- `fadd` (R121); `nan` is the word answered where the result is a NaN. An exact zero sum of values with different
signs is `+0.0`. -/
def fadd (nan x y : Word) : Word :=
  match f64Unpack x, f64Unpack y with
  | .nan, _ => nan
  | _, .nan => nan
  | .inf a, .inf b => if a = b then x else nan
  | .inf _, .fin _ _ _ => x
  | .fin _ _ _, .inf _ => y
  | .fin a m e, .fin b n f =>
    let g := min e f
    let i : Int := if a then -((m <<< (e - g).toNat : Nat) : Int) else ((m <<< (e - g).toNat : Nat) : Int)
    let j : Int := if b then -((n <<< (f - g).toNat : Nat) : Int) else ((n <<< (f - g).toNat : Nat) : Int)
    if i + j = 0 then f64WithSign (a && b) 0
    else f64OfScaled (i + j < 0) (i + j).natAbs g

/-- `fmul` (R121). -/
def fmul (nan x y : Word) : Word :=
  match f64Unpack x, f64Unpack y with
  | .nan, _ => nan
  | _, .nan => nan
  | .inf a, .inf b => f64Inf (a != b)
  | .inf a, .fin b n _ => if n = 0 then nan else f64Inf (a != b)
  | .fin a m _, .inf b => if m = 0 then nan else f64Inf (a != b)
  | .fin a m e, .fin b n f => f64OfScaled (a != b) (m * n) (e + f)

/-- `fdiv` (R121): `0/0` and `inf/inf` are NaNs (G7). -/
def fdiv (nan x y : Word) : Word :=
  match f64Unpack x, f64Unpack y with
  | .nan, _ => nan
  | _, .nan => nan
  | .inf _, .inf _ => nan
  | .inf a, .fin b _ _ => f64Inf (a != b)
  | .fin a _ _, .inf b => f64WithSign (a != b) 0
  | .fin a m e, .fin b n f =>
    if n = 0 then (if m = 0 then nan else f64Inf (a != b))
    else f64Round (a != b) (m <<< (e - f).toNat) (n <<< (f - e).toNat)

/-- `log2_f64`: exact on the powers of two, which is all R121 assumes of it; a free value elsewhere. -/
def log2F64 (w : Word) : Word :=
  match f64Unpack w with
  | .fin false m e =>
    if m ≠ 0 ∧ m = 1 <<< m.log2 then f64OfInt (e + (m.log2 : Int)) else Config.log2Other w
  | _ => Config.log2Other w

/-- The binary64 pattern of 1.0 (G7). -/
def f64One : Word := 0x3ff0000000000000#64

/-- The NaN the reference evaluation of `(D, T)` yields where it yields one: unconstrained among the NaN patterns (R125). -/
def entNan (d : BitVec 63) (t : Table) : Word := nanOf (Config.nanBits d t)

/-- `entropy_ref(D, T)` (R121); the table's own order is the ascending order of its keys. -/
def entropyRef (d : BitVec 63) (t : Table) : Word :=
  let nan := entNan d t
  let r := fdiv nan f64One (f64OfNat d.toNat)
  let q := t.map (fun e => fmul nan (f64OfNat e.2.toNat) r)
  let total := q.foldl (fadd nan) (f64OfNat 0)
  let h := q.foldl
    (fun acc qi => let p := fdiv nan qi total; fadd nan acc (fmul nan p (log2F64 p))) (f64OfNat 0)
  fneg h

/-- `efficiency_ref(D, T)` (R121). -/
def efficiencyRef (d : BitVec 63) (t : Table) : Word :=
  fdiv (entNan d t) (entropyRef d t) (log2F64 (f64OfNat d.toNat))

/-- `ENT_NUMERICS.entropy` (R121). -/
def entropyWord (p : Params) (d : BitVec 63) (t : Table) : Word :=
  match p.numerics with
  | .reference => entropyRef d t
  | .other => Config.entropyOther d t

/-- `ENT_NUMERICS.efficiency` (R121). -/
def efficiencyWord (p : Params) (d : BitVec 63) (t : Table) : Word :=
  match p.numerics with
  | .reference => efficiencyRef d t
  | .other => Config.efficiencyOther d t

end Sys2Proof.Machine
end

