-- ==== Sys2Proof/Machine/Ent.lean ====
section
/-! DEFINITION. ENT, the Shannon entropy accumulator with frequency table (spec/47_entropy.md). -/

namespace Sys2Proof.Machine

/-- ENT.INIT (R115): the domain is positive, the table is emptied. -/
def execEntInit (domain : Word) (s : State) : Result :=
  match domain? domain with
  | none => .next (s.raise .invalidDomain Opcode.entInit.word)
  | some d => .next ((s.setEnt { d := d, t := [], n := 0, v := true }).answer none)

/-- The table has no room for the key `v` (R117, R128). -/
def tableFullFor (p : Params) (t : Table) (v : Word) : Bool :=
  !tableHas t v && p.entCapacity == some t.length

/-- ENT.ADD (R117): `TABLE_FULL` before `COUNTER_OVERFLOW` (R138 item 5); the key is not held against the domain. -/
def execEntAdd (v : Word) (s : State) : Result :=
  s.whenConstructed s.ent.v .entAdd
    (if tableFullFor s.params s.ent.t v then .next (s.raise .tableFull Opcode.entAdd.word)
     else if s.ent.n = BitVec.allOnes 64 then .next (s.raise .counterOverflow Opcode.entAdd.word)
     else .next ((s.setEnt { s.ent with t := tableBump s.ent.t v, n := s.ent.n + 1 }).answer none))

/-- The shape of both scores (R122, R123): the distinct-keys precondition (R119), then the case without observations
(R124), then the value of `ENT_NUMERICS` on `(ENT.D, ENT.T)`. No state is written. -/
def entScore (o : Opcode) (score : BitVec 63 → Table → Word) (s : State) : Result :=
  s.whenConstructed s.ent.v o
    (if s.ent.d.toNat < s.ent.t.length then .next (s.raise .domainExceeded o.word)
     else if s.ent.n = 0 then .next s.answerAnyF64
     else .next (s.answer (some (score s.ent.d s.ent.t))))

/-- ENT.ENTROPY (R122). -/
def execEntEntropy (s : State) : Result := entScore .entEntropy (entropyWord s.params) s

/-- ENT.EFFICIENCY (R123). -/
def execEntEfficiency (s : State) : Result := entScore .entEfficiency (efficiencyWord s.params) s

end Sys2Proof.Machine
end

