-- ==== Sys2Proof/Machine/Oct.lean ====
section
/-! DEFINITION. OCT, the 512-bit eight-word generator (spec/46_octet.md), and its construction and comparison
(spec/42_construction.md R84 to R87). -/

namespace Sys2Proof.Machine

/-- `oct_update`, the closed form on the old values (R108). -/
def octUpdate (w : OctWords) : OctWords :=
  { s0 := w.s0 ^^^ w.s6
    s1 := (w.s1 ^^^ w.s2) ^^^ w.s0
    s2 := w.s2 ^^^ w.s0
    s3 := w.s3 ^^^ w.s4
    s4 := (w.s4 ^^^ w.s5) ^^^ w.s1
    s5 := w.s5 ^^^ w.s1
    s6 := ((w.s6 ^^^ w.s7) ^^^ w.s3) ^^^ (w.s1 <<< 11)
    s7 := rotl64 (w.s7 ^^^ w.s3) 21 }

/-- `oct_update_seq`, the source's eleven assignments in order (R108). -/
def octUpdateSeq (w : OctWords) : OctWords :=
  let t := w.s1 <<< 11
  let w := { w with s2 := w.s2 ^^^ w.s0 }
  let w := { w with s5 := w.s5 ^^^ w.s1 }
  let w := { w with s1 := w.s1 ^^^ w.s2 }
  let w := { w with s7 := w.s7 ^^^ w.s3 }
  let w := { w with s3 := w.s3 ^^^ w.s4 }
  let w := { w with s4 := w.s4 ^^^ w.s5 }
  let w := { w with s0 := w.s0 ^^^ w.s6 }
  let w := { w with s6 := w.s6 ^^^ w.s7 }
  let w := { w with s6 := w.s6 ^^^ t }
  { w with s7 := rotl64 w.s7 21 }

/-- The shape of every OCT.NEXT (R112). -/
def octDraw (o : Opcode) (scramble : OctWords → Word) (s : State) : Result :=
  s.whenConstructed s.oct.v o
    (.next ((s.setOct { s.oct with s := octUpdate s.oct.s }).answer (some (scramble s.oct.s))))

/-- The bank takes seeded state; `SM` is not touched (R85, R26). -/
def octSeeded (seed : Word) (s : State) : State :=
  (s.setOct { s := octOfSeed s.params seed, v := true }).answer none

/-- OCT.INIT (R84). -/
def execOctInit (w : OctWords) (s : State) : Result :=
  if octValid w then .next ((s.setOct { s := w, v := true }).answer none)
  else .next (s.raise .invalidState Opcode.octInit.word)

/-- OCT.SEED (R85). -/
def execOctSeed (seed : Word) (s : State) : Result := .next (octSeeded seed s)

/-- OCT.HOST (R86). -/
def execOctHost (s : State) : Result := .next (octSeeded s.takeHrand.1 s.takeHrand.2)

/-- OCT.NEXT.P (R109): `s0 + s2`. -/
def execOctNextP (s : State) : Result := octDraw .octNextP (fun w => w.s0 + w.s2) s

/-- OCT.NEXT.PP (R110): `rotl(s0+s2, 17) + s2`. -/
def execOctNextPP (s : State) : Result :=
  octDraw .octNextPP (fun w => rotl64 (w.s0 + w.s2) 17 + w.s2) s

/-- OCT.NEXT.SS (R111): `rotl(s1*5, 7) * 9`. -/
def execOctNextSS (s : State) : Result :=
  octDraw .octNextSS (fun w => rotl64 (w.s1 * 5) 7 * 9) s

/-- OCT.EQ (R87). -/
def execOctEq (w : OctWords) (s : State) : Result :=
  s.whenConstructed s.oct.v .octEq (.next (s.answer (some (boolWord (s.oct.s == w)))))

end Sys2Proof.Machine
end

