-- ==== Sys2Proof/Machine/Pair.lean ====
section
/-! DEFINITION. PAIR, the 128-bit two-word generator (spec/43_pair.md), and its construction and comparison
(spec/42_construction.md R72 to R75). -/

namespace Sys2Proof.Machine

/-- `pair_update` on the old values (R90). -/
def pairUpdate (w : PairWords) : PairWords :=
  let t := w.s0 ^^^ w.s1
  { s0 := (rotl64 w.s0 24 ^^^ t) ^^^ (t <<< 16), s1 := rotl64 t 37 }

/-- The shape of every PAIR.NEXT: the word is computed from the old state, then the state is updated (R94). -/
def pairDraw (o : Opcode) (scramble : PairWords → Word) (s : State) : Result :=
  s.whenConstructed s.pair.v o
    (.next ((s.setPair { s.pair with s := pairUpdate s.pair.s }).answer (some (scramble s.pair.s))))

/-- The bank takes seeded state; `SM` is not touched (R73, R26). -/
def pairSeeded (seed : Word) (s : State) : State :=
  (s.setPair { s := pairOfSeed s.params seed, v := true }).answer none

/-- PAIR.INIT (R72). -/
def execPairInit (w : PairWords) (s : State) : Result :=
  if pairValid w then .next ((s.setPair { s := w, v := true }).answer none)
  else .next (s.raise .invalidState Opcode.pairInit.word)

/-- PAIR.SEED (R73). -/
def execPairSeed (seed : Word) (s : State) : Result := .next (pairSeeded seed s)

/-- PAIR.HOST (R74). -/
def execPairHost (s : State) : Result := .next (pairSeeded s.takeHrand.1 s.takeHrand.2)

/-- PAIR.NEXT.P (R91): `s0 + s1`. -/
def execPairNextP (s : State) : Result := pairDraw .pairNextP (fun w => w.s0 + w.s1) s

/-- PAIR.NEXT.PP (R92): `rotl(s0+s1, 17) + s0`. -/
def execPairNextPP (s : State) : Result :=
  pairDraw .pairNextPP (fun w => rotl64 (w.s0 + w.s1) 17 + w.s0) s

/-- PAIR.NEXT.SS (R93): `rotl(s0*5, 7) * 9`. -/
def execPairNextSS (s : State) : Result :=
  pairDraw .pairNextSS (fun w => rotl64 (w.s0 * 5) 7 * 9) s

/-- PAIR.EQ (R75). -/
def execPairEq (w : PairWords) (s : State) : Result :=
  s.whenConstructed s.pair.v .pairEq (.next (s.answer (some (boolWord (s.pair.s == w)))))

end Sys2Proof.Machine
end

