-- ==== Sys2Proof/Machine/Quad.lean ====
section
/-! DEFINITION. QUAD, the 256-bit four-word generator (spec/45_quad.md), and its construction and comparison
(spec/42_construction.md R80 to R83). -/

namespace Sys2Proof.Machine

/-- `quad_update`, the closed form on the old values (R102). -/
def quadUpdate (w : QuadWords) : QuadWords :=
  { s0 := (w.s0 ^^^ w.s3) ^^^ w.s1
    s1 := (w.s1 ^^^ w.s2) ^^^ w.s0
    s2 := (w.s2 ^^^ w.s0) ^^^ (w.s1 <<< 17)
    s3 := rotl64 (w.s3 ^^^ w.s1) 45 }

/-- `quad_update_seq`, the source's seven assignments in order (R102). -/
def quadUpdateSeq (w : QuadWords) : QuadWords :=
  let t := w.s1 <<< 17
  let w := { w with s2 := w.s2 ^^^ w.s0 }
  let w := { w with s3 := w.s3 ^^^ w.s1 }
  let w := { w with s1 := w.s1 ^^^ w.s2 }
  let w := { w with s0 := w.s0 ^^^ w.s3 }
  let w := { w with s2 := w.s2 ^^^ t }
  { w with s3 := rotl64 w.s3 45 }

/-- The shape of every QUAD.NEXT (R106). -/
def quadDraw (o : Opcode) (scramble : QuadWords → Word) (s : State) : Result :=
  s.whenConstructed s.quad.v o
    (.next ((s.setQuad { s.quad with s := quadUpdate s.quad.s }).answer (some (scramble s.quad.s))))

/-- The bank takes seeded state; `SM` is not touched (R81, R26). -/
def quadSeeded (seed : Word) (s : State) : State :=
  (s.setQuad { s := quadOfSeed s.params seed, v := true }).answer none

/-- QUAD.INIT (R80). -/
def execQuadInit (w : QuadWords) (s : State) : Result :=
  if quadValid w then .next ((s.setQuad { s := w, v := true }).answer none)
  else .next (s.raise .invalidState Opcode.quadInit.word)

/-- QUAD.SEED (R81). -/
def execQuadSeed (seed : Word) (s : State) : Result := .next (quadSeeded seed s)

/-- QUAD.HOST (R82). -/
def execQuadHost (s : State) : Result := .next (quadSeeded s.takeHrand.1 s.takeHrand.2)

/-- QUAD.NEXT.P (R103): `s0 + s3`. -/
def execQuadNextP (s : State) : Result := quadDraw .quadNextP (fun w => w.s0 + w.s3) s

/-- QUAD.NEXT.PP (R104): `rotl(s0+s3, 23) + s0`. -/
def execQuadNextPP (s : State) : Result :=
  quadDraw .quadNextPP (fun w => rotl64 (w.s0 + w.s3) 23 + w.s0) s

/-- QUAD.NEXT.SS (R105): `rotl(s1*5, 7) * 9`. -/
def execQuadNextSS (s : State) : Result :=
  quadDraw .quadNextSS (fun w => rotl64 (w.s1 * 5) 7 * 9) s

/-- QUAD.EQ (R83). -/
def execQuadEq (w : QuadWords) (s : State) : Result :=
  s.whenConstructed s.quad.v .quadEq (.next (s.answer (some (boolWord (s.quad.s == w)))))

end Sys2Proof.Machine
end

