-- ==== Sys2Proof/Machine/Rot.lean ====
section
/-! DEFINITION. ROT, the bit-rotation unit (spec/40_rotation.md). -/

namespace Sys2Proof.Machine

/-- ROTL (R56, R57): outside `0 < k < 64` the word is ANY64, and nothing faults. -/
def execRotl (x k : Word) (s : State) : Result :=
  match rotAmount? k with
  | some n => .next (s.answer (some (rotl64 x n)))
  | none => .next s.answerAny64

end Sys2Proof.Machine
end

