-- ==== Sys2Proof/Machine/Sm.lean ====
section
/-! DEFINITION. SM, the SplitMix64 seed expander (spec/41_splitmix64.md). -/

namespace Sys2Proof.Machine

/-- SM.INIT (R59): every word is a valid state. -/
def execSmInit (state : Word) (s : State) : Result :=
  .next ((s.setSm { x := state, v := true }).answer none)

/-- SM.NEXT (R60). -/
def execSmNext (s : State) : Result :=
  s.whenConstructed s.sm.v .smNext
    (.next ((s.setSm { s.sm with x := (smStep s.params s.sm.x).1 }).answer (some (smStep s.params s.sm.x).2)))

/-- SM.EQ (R61). -/
def execSmEq (state : Word) (s : State) : Result :=
  s.whenConstructed s.sm.v .smEq (.next (s.answer (some (boolWord (s.sm.x == state)))))

end Sys2Proof.Machine
end

