-- ==== Sys2Proof/Machine/Dispatch.lean ====
section
/-! DEFINITION. The meaning of each command, one arm per constructor of `Instr`. -/

namespace Sys2Proof.Machine

def exec (i : Instr) (s : State) : Host.Outcome State Fault Refusal :=
  match i with
  | .rotl x k => Sys2Proof.Machine.execRotl x k s
  | .smInit state => Sys2Proof.Machine.execSmInit state s
  | .smNext => Sys2Proof.Machine.execSmNext s
  | .smEq state => Sys2Proof.Machine.execSmEq state s
  | .pairInit w => Sys2Proof.Machine.execPairInit w s
  | .pairSeed seed => Sys2Proof.Machine.execPairSeed seed s
  | .pairHost => Sys2Proof.Machine.execPairHost s
  | .pairNextP => Sys2Proof.Machine.execPairNextP s
  | .pairNextPP => Sys2Proof.Machine.execPairNextPP s
  | .pairNextSS => Sys2Proof.Machine.execPairNextSS s
  | .pairEq w => Sys2Proof.Machine.execPairEq w s
  | .arrInit p a => Sys2Proof.Machine.execArrInit p a s
  | .arrSeed seed => Sys2Proof.Machine.execArrSeed seed s
  | .arrHost => Sys2Proof.Machine.execArrHost s
  | .arrNextSS => Sys2Proof.Machine.execArrNextSS s
  | .arrNextS => Sys2Proof.Machine.execArrNextS s
  | .arrEq a => Sys2Proof.Machine.execArrEq a s
  | .quadInit w => Sys2Proof.Machine.execQuadInit w s
  | .quadSeed seed => Sys2Proof.Machine.execQuadSeed seed s
  | .quadHost => Sys2Proof.Machine.execQuadHost s
  | .quadNextP => Sys2Proof.Machine.execQuadNextP s
  | .quadNextPP => Sys2Proof.Machine.execQuadNextPP s
  | .quadNextSS => Sys2Proof.Machine.execQuadNextSS s
  | .quadEq w => Sys2Proof.Machine.execQuadEq w s
  | .octInit w => Sys2Proof.Machine.execOctInit w s
  | .octSeed seed => Sys2Proof.Machine.execOctSeed seed s
  | .octHost => Sys2Proof.Machine.execOctHost s
  | .octNextP => Sys2Proof.Machine.execOctNextP s
  | .octNextPP => Sys2Proof.Machine.execOctNextPP s
  | .octNextSS => Sys2Proof.Machine.execOctNextSS s
  | .octEq w => Sys2Proof.Machine.execOctEq w s
  | .entInit domain => Sys2Proof.Machine.execEntInit domain s
  | .entAdd v => Sys2Proof.Machine.execEntAdd v s
  | .entEntropy => Sys2Proof.Machine.execEntEntropy s
  | .entEfficiency => Sys2Proof.Machine.execEntEfficiency s

end Sys2Proof.Machine
end

