-- ==== Sys2Proof/Machine/Port.lean ====
section
/-! DEFINITION. The command port (spec/30_encoding.md R40; spec/60_exceptions.md R132, R134): what CORE does with the
host's next event before a command executes. -/

namespace Sys2Proof.Machine

/-- What the port hands on. -/
inductive Accepted where
  /-- The step is complete. -/
  | done (s : State)
  /-- A command executes in state `s`, its transaction already taken from the port. -/
  | run (i : Instr) (s : State)
  /-- Two transactions at once: CORE gives them no meaning (R35). -/
  | concurrent
  deriving DecidableEq, Repr

/-- One transaction, taken from the port: the halted check comes first (R132), then the decoder (R138). -/
def State.acceptRequest (s : State) (r : Request) : Accepted :=
  if s.fault.halt then .done s.answerHalted
  else
    match decode r with
    | .error _ => .done (s.raise .illegalCommand r.cw)
    | .ok i => .run i s

/-- The host's next event: with none, CORE waits (R150). -/
def State.accept (s : State) : Accepted :=
  match s.port with
  | [] => .done s
  | .transaction r :: rest => (s.setPort rest).acceptRequest r
  | .reset :: rest => .done (s.setPort rest).assertReset
  | .concurrent _ _ :: _ => .concurrent

/-- The host presents `r` next. -/
def State.present (s : State) (r : Request) : State := s.setPort (.transaction r :: s.port)

end Sys2Proof.Machine
end

