-- ==== Sys2Proof/Machine/Step.lean ====
section
/-! DEFINITION. One step of CORE: it takes the host's next event (spec/30_encoding.md R40) and carries it to completion
(spec/20_memory.md R33, R34). -/

namespace Sys2Proof.Machine

def step (s : State) : Host.Outcome State Fault Refusal :=
  match s.accept with
  | .done t => .next t
  | .run i t => exec i t
  | .concurrent => .refused .concurrentTransactions

/-- `s` with the transaction whose bits are `w` (numbered as spec/opcode_table.json does, operand words after the
command word) as the next one the host presents (log entry 14). -/
def State.withFetchWord (s : State) (nbits w : Nat) : State := s.present (requestOfTableWord nbits w)

end Sys2Proof.Machine
end

