-- ==== Sys2Proof/Safety.lean ====
section
/-! DEFINITION. What claims about CORE are stated in: the machine's invariant, the unit a command belongs to, what the
host can tell apart, runs of commands, and the real-valued scores of spec/47_entropy.md R120. -/

namespace Sys2Proof.Machine

/-! Responses and the fault entry, as spec/30_encoding.md R42 and spec/60_exceptions.md R132, R133 word them. -/

/-- `(OK, 0x00, result)`. -/
def okResponse (result : Option Word) : Option Response := some { status := .ok, cause := 0x00#8, result := result }

/-- `(FAULT, C, none)`. -/
def faultResponse (code : BitVec 8) : Option Response := some { status := .fault, cause := code, result := none }

/-- `(HALTED, C, none)`. -/
def haltedResponse (code : BitVec 8) : Option Response := some { status := .halted, cause := code, result := none }

/-- R133: what a fault with this code leaves of `s` when the transaction's command word is `cw`. -/
def faultEntry (s : State) (code : BitVec 8) (cw : CmdWord) : State :=
  { s with fault := { halt := true, cause := code, cw := cw }, response := faultResponse code }

/-! The invariant of a step. -/

/-- R18: a constructed bank's state words are not all zero. -/
def State.banksNonZero (s : State) : Prop :=
  (s.pair.v = true → pairValid s.pair.s = true) ∧ (s.arr.v = true → arrValid s.arr.a = true) ∧
    (s.quad.v = true → quadValid s.quad.s = true) ∧ (s.oct.v = true → octValid s.oct.s = true)

/-- R24 (a), (b), R23, R128: the table is canonical without zero counts, its counts add up to `ENT.N`, the domain of a
constructed estimator is positive, and the table is within the capacity. -/
def State.estimatorConsistent (s : State) : Prop :=
  Table.wf s.ent.t ∧ tableTotal s.ent.t = s.ent.n.toNat ∧ (s.ent.v = true → s.ent.d ≠ 0) ∧
    (∀ c ∈ s.params.entCapacity, s.ent.t.length ≤ c)

/-- R22: the FAULT register is clear while CORE runs and holds a cause of R130 once it is halted. -/
def State.faultConsistent (s : State) : Prop :=
  if s.fault.halt then ∃ c ∈ Cause.all, s.fault.cause = c.code else s.fault.cause = 0 ∧ s.fault.cw = 0

/-- R42: the latest response carries cause 0 when its status is OK, and FAULT.CAUSE and no result otherwise. -/
def State.responseConsistent (s : State) : Prop :=
  ∀ r ∈ s.response,
    if r.status = .ok then r.cause = 0 ∧ s.fault.halt = false
    else r.cause = s.fault.cause ∧ r.result = none ∧ s.fault.halt = true

/-- What every step keeps. -/
def State.Inv (s : State) : Prop :=
  s.params.wf ∧ s.banksNonZero ∧ s.estimatorConsistent ∧ s.faultConsistent ∧ s.responseConsistent

/-! Commands and units (spec/00_scope.md R1). -/

inductive UnitName where
  | rot
  | sm
  | pair
  | arr
  | quad
  | oct
  | ent
  deriving DecidableEq, Repr

/-- The unit a command belongs to (R43). -/
def unitOf : Instr → UnitName
  | .rotl _ _ => .rot
  | .smInit _ | .smNext | .smEq _ => .sm
  | .pairInit _ | .pairSeed _ | .pairHost | .pairNextP | .pairNextPP | .pairNextSS | .pairEq _ => .pair
  | .arrInit _ _ | .arrSeed _ | .arrHost | .arrNextSS | .arrNextS | .arrEq _ => .arr
  | .quadInit _ | .quadSeed _ | .quadHost | .quadNextP | .quadNextPP | .quadNextSS | .quadEq _ => .quad
  | .octInit _ | .octSeed _ | .octHost | .octNextP | .octNextPP | .octNextSS | .octEq _ => .oct
  | .entInit _ | .entAdd _ | .entEntropy | .entEfficiency => .ent

/-- The X.HOST commands, the only ones that take a word from `HRAND` (R25). -/
def isHost : Instr → Bool
  | .pairHost | .arrHost | .quadHost | .octHost => true
  | _ => false

/-- The NEXT commands of the four generator banks. -/
def isDraw : Instr → Bool
  | .pairNextP | .pairNextPP | .pairNextSS | .arrNextSS | .arrNextS | .quadNextP | .quadNextPP | .quadNextSS
  | .octNextP | .octNextPP | .octNextSS => true
  | _ => false

/-- The seed constructor of a class (R64). -/
def seedCommand : GenClass → Word → Instr
  | .pair, seed => .pairSeed seed
  | .arr, seed => .arrSeed seed
  | .quad, seed => .quadSeed seed
  | .oct, seed => .octSeed seed

/-- The unit of a class. -/
def classUnit : GenClass → UnitName
  | .pair => .pair
  | .arr => .arr
  | .quad => .quad
  | .oct => .oct

/-- The `i`-th word (from 0) SplitMix64 yields from the state word `x`: `sm_step` of the state after `i` steps (R58, R67). -/
def expanderWord (p : Params) (x : Word) (i : Nat) : Word := (smStep p (x + BitVec.ofNat 64 i * smGamma)).2

/-- The output of R58 from the new state word `x'`, with the shift amounts `k₁` and `k₂`. -/
def splitMixOutput (k₁ k₂ : Nat) (x' : Word) : Word :=
  let a := (x' ^^^ (x' >>> k₁)) * 0xbf58476d1ce4e5b9#64
  let b := (a ^^^ (a >>> k₂)) * 0x94d049bb133111eb#64
  b ^^^ (b >>> 31)

/-- The pattern of a NaN: exponent all ones, fraction not 0 (spec/93_implementation_defined.md G7). -/
def isNanWord (w : Word) : Prop := w.extractLsb' 52 11 = 0x7ff#11 ∧ w.extractLsb' 0 52 ≠ 0#52

/-- R131: the valid bit a command reads before anything else, `none` for ROTL and the constructors. -/
def validBit? (s : State) : Instr → Option Bool
  | .rotl _ _ => none
  | .smInit _ | .pairInit _ | .arrInit _ _ | .quadInit _ | .octInit _ | .entInit _ => none
  | .pairSeed _ | .arrSeed _ | .quadSeed _ | .octSeed _ => none
  | .pairHost | .arrHost | .quadHost | .octHost => none
  | .smNext | .smEq _ => some s.sm.v
  | .pairNextP | .pairNextPP | .pairNextSS | .pairEq _ => some s.pair.v
  | .arrNextSS | .arrNextS | .arrEq _ => some s.arr.v
  | .quadNextP | .quadNextPP | .quadNextSS | .quadEq _ => some s.quad.v
  | .octNextP | .octNextPP | .octNextSS | .octEq _ => some s.oct.v
  | .entAdd _ | .entEntropy | .entEfficiency => some s.ent.v

/-- R142: the commands whose operands can raise a fault or whose unit's state can, once it is constructed. -/
def mayFaultConstructed : Instr → Bool
  | .pairInit _ | .arrInit _ _ | .quadInit _ | .octInit _ | .entInit _ => true
  | .entAdd _ | .entEntropy | .entEfficiency => true
  | _ => false

/-- Every unit but `u` holds in `t` what it holds in `s` (R29). -/
def sameOutside (u : UnitName) (s t : State) : Prop :=
  (u ≠ .sm → t.sm = s.sm) ∧ (u ≠ .pair → t.pair = s.pair) ∧ (u ≠ .arr → t.arr = s.arr) ∧
    (u ≠ .quad → t.quad = s.quad) ∧ (u ≠ .oct → t.oct = s.oct) ∧ (u ≠ .ent → t.ent = s.ent)

/-- The unit `u` holds in `t` what it holds in `s`; ROT holds nothing. -/
def sameUnit (u : UnitName) (s t : State) : Prop :=
  match u with
  | .rot => True
  | .sm => s.sm = t.sm
  | .pair => s.pair = t.pair
  | .arr => s.arr = t.arr
  | .quad => s.quad = t.quad
  | .oct => s.oct = t.oct
  | .ent => s.ent = t.ent

/-! What the host can tell apart. -/

/-- The same valid bit, and the same data where it is 1. -/
def agreeWhenValid {α : Type} (v v' : Bool) (a b : α) : Prop := v = v' ∧ (v = true → a = b)

/-- Equal but for the data registers of unconstructed units, whose values the spec leaves unspecified (R28, U10). -/
def indistinguishable (s t : State) : Prop :=
  agreeWhenValid s.sm.v t.sm.v s.sm t.sm ∧ agreeWhenValid s.pair.v t.pair.v s.pair t.pair ∧
    agreeWhenValid s.arr.v t.arr.v s.arr t.arr ∧ agreeWhenValid s.quad.v t.quad.v s.quad t.quad ∧
    agreeWhenValid s.oct.v t.oct.v s.oct t.oct ∧ agreeWhenValid s.ent.v t.ent.v s.ent t.ent ∧
    s.fault = t.fault ∧ s.port = t.port ∧ s.response = t.response ∧ s.hrand = t.hrand ∧
    s.draws = t.draws ∧ s.params = t.params

/-- Two outcomes the host cannot tell apart. -/
def sameOutcome : Result → Result → Prop
  | .next s, .next t => indistinguishable s t
  | .refused a, .refused b => a = b
  | _, _ => False

/-! Runs of commands. -/

/-- The commands of a list in order on a running CORE: the state left and the responses, up to the first outcome that is
no next state. -/
def runCommands : List Instr → State → State × List (Option Response)
  | [], s => (s, [])
  | i :: is, s =>
    match exec i s with
    | .next t => ((runCommands is t).1, t.response :: (runCommands is t).2)
    | _ => (s, [])

/-! The real-valued scores (R120). They are not part of the machine: the machine answers binary64 words. -/

/-- `q_k = c_k * (1 / D)` of every key (R120). -/
noncomputable def scaledCounts (d : Nat) (t : Table) : List ℝ := t.map (fun e => (e.2.toNat : ℝ) * (1 / (d : ℝ)))

/-- `H_R = - sum p_k log2 p_k` with `p_k = q_k / S` (R120). -/
noncomputable def entropyReal (d : Nat) (t : Table) : ℝ :=
  -((scaledCounts d t).map
      (fun q => q / (scaledCounts d t).sum * Real.logb 2 (q / (scaledCounts d t).sum))).sum

/-- `E_R = H_R / log2(D)` (R120). -/
noncomputable def efficiencyReal (d : Nat) (t : Table) : ℝ := entropyReal d t / Real.logb 2 d

end Sys2Proof.Machine
end

