-- ==== Sys2Proof/Certificates/Slice0/Obligations.lean ====
section
/-! DEFINITION. The statements for the provers, from the numbered rules of spec/. A command's statement gives the whole
next state, so it is its frame as well: what it does not write stands as it was. -/

open Sys2Proof Sys2Proof.Machine

/-! ## Encoding -/

/-- One word per unit, put together from the fields of R41 (UNIT, FN, SCR, ZERO), decodes to its command. -/
def Obligations.FieldWordsDecode : Prop :=
  (decode ⟨0x01#8 ++ 0x00#8 ++ 0x00#8 ++ 0x00#8, [9, 4]⟩).toOption = some (.rotl 9 4) ∧
  (decode ⟨0x02#8 ++ 0x03#8 ++ 0x00#8 ++ 0x00#8, []⟩).toOption = some .smNext ∧
  (decode ⟨0x03#8 ++ 0x03#8 ++ 0x01#8 ++ 0x00#8, []⟩).toOption = some .pairNextPP ∧
  (decode ⟨0x04#8 ++ 0x03#8 ++ 0x03#8 ++ 0x00#8, []⟩).toOption = some .arrNextS ∧
  (decode ⟨0x05#8 ++ 0x00#8 ++ 0x00#8 ++ 0x00#8, [1, 2, 3, 4]⟩).toOption = some (.quadInit ⟨1, 2, 3, 4⟩) ∧
  (decode ⟨0x06#8 ++ 0x01#8 ++ 0x00#8 ++ 0x00#8, [6]⟩).toOption = some (.octSeed 6) ∧
  (decode ⟨0x07#8 ++ 0x01#8 ++ 0x00#8 ++ 0x00#8, [6]⟩).toOption = some (.entAdd 6)

/-- Decoding the request of any command gives that command back, with every operand at every value. -/
def Obligations.DecodeOfEncode : Prop := ∀ i : Instr, decode (encode i) = .ok i

/-- A request that decodes is the request of the command it decodes to: no two requests mean one command. -/
def Obligations.EncodeOfDecode : Prop := ∀ (r : Request) (i : Instr), decode r = .ok i → encode i = r

/-- The decoder accepts exactly the requests whose fields and operand count are legal (R41 to R46, R49, R50), and says
of the others whether the word or the operand count is at fault, the word first. -/
def Obligations.DecodeAcceptsExactlyWellFormed : Prop :=
  ∀ r : Request,
    (r.wellFormed = true → ∃ i, decode r = .ok i) ∧
    (r.wordLegal = false → decode r = .error .illegalWord) ∧
    (r.wordLegal = true → r.wellFormed = false → decode r = .error .operandCount)

/-! ## Transactions, halting, reset -/

/-- On a running CORE a step takes the next transaction from the port and, where it decodes, is `exec` of the command. -/
def Obligations.StepRunsDecodedCommand : Prop :=
  ∀ (s : State) (r : Request) (rest : List HostEvent) (i : Instr),
    s.fault.halt = false → s.port = .transaction r :: rest → decode r = .ok i →
      step s = exec i { s with port := rest }

/-- R132. -/
def Obligations.HaltedTransactionAnswered : Prop :=
  ∀ (s : State) (r : Request) (rest : List HostEvent),
    s.fault.halt = true → s.port = .transaction r :: rest →
      step s = .next { s with port := rest, response := haltedResponse s.fault.cause }

/-- R134: a request that is no command faults with ILLEGAL_COMMAND and its own command word, whatever is constructed. -/
def Obligations.IllegalTransactionFaults : Prop :=
  ∀ (s : State) (r : Request) (rest : List HostEvent),
    s.fault.halt = false → s.port = .transaction r :: rest → r.wellFormed = false →
      step s = .next (faultEntry { s with port := rest } 0x10#8 r.cw)

/-- Every transaction is answered in one step, in every state (R34, R160). -/
def Obligations.EveryTransactionAnswered : Prop :=
  ∀ (s : State) (r : Request) (rest : List HostEvent), s.port = .transaction r :: rest →
    ∃ t a, step s = .next t ∧ t.port = rest ∧ t.response = some a ∧ (a.status ≠ .ok → a.result = none)

/-- The model's choice (log entry 1): with nothing presented, a step changes nothing. -/
def Obligations.NothingPresentedNothingHappens : Prop := ∀ s : State, s.port = [] → step s = .next s

/-- R150 as the model takes it (log entry 4): the reset input, in any state. -/
def Obligations.ResetInputClears : Prop :=
  ∀ (s : State) (rest : List HostEvent), s.port = .reset :: rest →
    ∃ t, step s = .next t ∧
      t.sm.v = false ∧ t.pair.v = false ∧ t.arr.v = false ∧ t.quad.v = false ∧ t.oct.v = false ∧ t.ent.v = false ∧
      t.fault = { halt := false, cause := 0x00#8, cw := 0x00000000#32 } ∧ t.response = none ∧
      t.port = rest ∧ t.hrand = s.hrand ∧ t.draws = s.draws ∧ t.params = s.params

/-- R28: the values the spec gives for reset. -/
def Obligations.ResetValues : Prop :=
  State.reset.sm.v = false ∧ State.reset.pair.v = false ∧ State.reset.arr.v = false ∧
    State.reset.quad.v = false ∧ State.reset.oct.v = false ∧ State.reset.ent.v = false ∧
    State.reset.fault = { halt := false, cause := 0x00#8, cw := 0x00000000#32 }

/-- R35: two transactions at once have no step. -/
def Obligations.ConcurrentTransactionsRefused : Prop :=
  ∀ (s : State) (r₁ r₂ : Request) (rest : List HostEvent), s.port = .concurrent r₁ r₂ :: rest →
    step s = .refused .concurrentTransactions

/-- R139: no command clears FAULT, and a second fault cannot occur while halted. -/
def Obligations.OnlyResetLeavesHalted : Prop :=
  ∀ s t : State, step s = .next t → s.fault.halt = true → (∀ rest, s.port ≠ .reset :: rest) →
    t.fault = s.fault ∧ t.sm = s.sm ∧ t.pair = s.pair ∧ t.arr = s.arr ∧ t.quad = s.quad ∧ t.oct = s.oct ∧
      t.ent = s.ent ∧ t.hrand = s.hrand ∧ t.draws = s.draws ∧ t.params = s.params

/-! ## Faults -/

/-- R133: a command either answers OK and leaves FAULT alone, or changes nothing but FAULT and the response, with a cause
of R130 and its own command word. -/
def Obligations.CommandsAnswerOrFault : Prop :=
  ∀ (i : Instr) (s : State), ∃ t, exec i s = .next t ∧
    ((∃ w, t.response = okResponse w ∧ t.fault = s.fault) ∨
      (∃ code ∈ [0x01#8, 0x02#8, 0x03#8, 0x04#8, 0x11#8, 0x12#8, 0x13#8],
        t = faultEntry s code (encode i).cw))

/-- R131: a command that reads a unit whose valid bit is 0 faults; ROTL and the constructors never raise this cause. -/
def Obligations.UnconstructedUnitFaults : Prop :=
  ∀ (i : Instr) (s : State),
    (validBit? s i = some false → exec i s = .next (faultEntry s 0x11#8 (encode i).cw)) ∧
    (validBit? s i ≠ some false → exec i s ≠ .next (faultEntry s 0x11#8 (encode i).cw))

/-- R142: ROTL, SM.INIT, X.SEED and X.HOST never fault; SM.NEXT, SM.EQ, X.NEXT.* and X.EQ only on a unit that is not
constructed. -/
def Obligations.FaultFreeCommands : Prop :=
  ∀ (i : Instr) (s : State), mayFaultConstructed i = false → validBit? s i ≠ some false →
    ∃ t w, exec i s = .next t ∧ t.response = okResponse w ∧ t.fault = s.fault

/-! ## ROT -/

/-- R55, R56: for `0 < k < 64` bit `i` of `x` becomes bit `(i + k) mod 64` of the result; for any other `k` ROTL answers OK
with some word (R57). No architectural state is written. -/
def Obligations.RotlRotatesBits : Prop :=
  ∀ (x k : Word) (s : State),
    encode (.rotl x k) = ⟨0x01000000#32, [x, k]⟩ ∧
    (0 < k.toNat → k.toNat < 64 →
      ∃ w, exec (.rotl x k) s = .next { s with response := okResponse (some w) } ∧
        ∀ i < 64, w.getLsbD ((i + k.toNat) % 64) = x.getLsbD i) ∧
    (k.toNat = 0 ∨ 64 ≤ k.toNat →
      ∃ w, exec (.rotl x k) s = .next { s with draws := s.draws + 1, response := okResponse (some w) })

/-! ## SM -/

/-- R59. -/
def Obligations.SmInitLoads : Prop :=
  ∀ (x : Word) (s : State),
    encode (.smInit x) = ⟨0x02000000#32, [x]⟩ ∧
    exec (.smInit x) s = .next { s with sm := { x := x, v := true }, response := okResponse none }

/-- R60 with the step of R58, whatever the two shift amounts this CORE was built with. -/
def Obligations.SmNextSteps : Prop :=
  ∀ s : State,
    encode .smNext = ⟨0x02030000#32, []⟩ ∧
    (s.sm.v = false → exec .smNext s = .next (faultEntry s 0x11#8 0x02030000#32)) ∧
    (s.sm.v = true →
      let x' := s.sm.x + 0x9e3779b97f4a7c15#64
      exec .smNext s =
        .next { s with sm := { x := x', v := true },
                       response := okResponse (some (splitMixOutput s.params.smShift1 s.params.smShift2 x')) })

/-- R61. -/
def Obligations.SmEqCompares : Prop :=
  ∀ (x : Word) (s : State),
    encode (.smEq x) = ⟨0x02040000#32, [x]⟩ ∧
    (s.sm.v = false → exec (.smEq x) s = .next (faultEntry s 0x11#8 0x02040000#32)) ∧
    (s.sm.v = true →
      exec (.smEq x) s = .next { s with response := okResponse (some (if s.sm.x = x then 1 else 0)) })

/-- R62: the state walk is a bijection with a single cycle of length `2^64`; with shift amounts in `[1, 63]` the output
map is a bijection, and no output of one expander comes back within `2^64` draws. -/
def Obligations.SplitMixLaws : Prop :=
  (Function.Bijective smAdvance ∧ ∀ x y : Word, ∃! n : Nat, n < 2 ^ 64 ∧ seedAdvance x n = y) ∧
  ∀ p : Params, p.wf →
    Function.Bijective (fun x' => smMix p x') ∧
    ∀ (x : Word) (i j : Nat), i < 2 ^ 64 → j < 2 ^ 64 → expanderWord p x i = expanderWord p x j → i = j

/-- R70: whatever the seed, the first draw of at least two words is not all zero, so however many retries are allowed the
loop of R69 answers that draw. -/
def Obligations.RetryLoopRunsOnce : Prop :=
  ∀ (p : Params) (n retries : Nat) (x : Word), p.wf → 2 ≤ n →
    (∃ i < n, expanderWord p x i ≠ 0) ∧
      seedStateLoop p n retries x = (List.range n).map (expanderWord p x)

/-! ## PAIR -/

/-- R72. -/
def Obligations.PairInitLoads : Prop :=
  ∀ (w : PairWords) (s : State),
    encode (.pairInit w) = ⟨0x03000000#32, [w.s0, w.s1]⟩ ∧
    (w.s0 = 0 ∧ w.s1 = 0 → exec (.pairInit w) s = .next (faultEntry s 0x01#8 0x03000000#32)) ∧
    (w.s0 ≠ 0 ∨ w.s1 ≠ 0 →
      exec (.pairInit w) s = .next { s with pair := { s := w, v := true }, response := okResponse none })

/-- R73, R74: the first two words of the expander; a host constructor does the same with a word from HRAND. -/
def Obligations.PairSeedAndHost : Prop :=
  ∀ s : State,
    let seeded (x : Word) (t : State) : State :=
      { t with pair := { s := { s0 := expanderWord s.params x 0, s1 := expanderWord s.params x 1 }, v := true },
               response := okResponse none }
    (∀ x, encode (.pairSeed x) = ⟨0x03010000#32, [x]⟩) ∧ encode .pairHost = ⟨0x03020000#32, []⟩ ∧
    (∀ x, exec (.pairSeed x) s = .next (seeded x s)) ∧
    (∀ h ws, s.hrand = h :: ws → exec .pairHost s = .next (seeded h { s with hrand := ws })) ∧
    (s.hrand = [] → ∃ h, exec .pairHost s = .next (seeded h { s with draws := s.draws + 1 }))

/-- R90 to R93. -/
def Obligations.PairNextDraws : Prop :=
  ∀ s : State,
    (encode .pairNextP = ⟨0x03030000#32, []⟩ ∧ encode .pairNextPP = ⟨0x03030100#32, []⟩ ∧
      encode .pairNextSS = ⟨0x03030200#32, []⟩) ∧
    (s.pair.v = false →
      exec .pairNextP s = .next (faultEntry s 0x11#8 0x03030000#32) ∧
      exec .pairNextPP s = .next (faultEntry s 0x11#8 0x03030100#32) ∧
      exec .pairNextSS s = .next (faultEntry s 0x11#8 0x03030200#32)) ∧
    (s.pair.v = true →
      let s0 := s.pair.s.s0
      let s1 := s.pair.s.s1
      let t := s0 ^^^ s1
      let left (w : Word) : State :=
        { s with pair := { s := { s0 := s0.rotateLeft 24 ^^^ t ^^^ (t <<< 16), s1 := t.rotateLeft 37 }, v := true },
                 response := okResponse (some w) }
      exec .pairNextP s = .next (left (s0 + s1)) ∧
      exec .pairNextPP s = .next (left ((s0 + s1).rotateLeft 17 + s0)) ∧
      exec .pairNextSS s = .next (left ((s0 * 5).rotateLeft 7 * 9)))

/-- R75. -/
def Obligations.PairEqCompares : Prop :=
  ∀ (w : PairWords) (s : State),
    encode (.pairEq w) = ⟨0x03040000#32, [w.s0, w.s1]⟩ ∧
    (s.pair.v = false → exec (.pairEq w) s = .next (faultEntry s 0x11#8 0x03040000#32)) ∧
    (s.pair.v = true →
      exec (.pairEq w) s = .next { s with response := okResponse (some (if s.pair.s = w then 1 else 0)) })

/-! ## ARR -/

/-- R76, R140: the pointer operand is checked first, as an unsigned 64-bit number. -/
def Obligations.ArrInitLoads : Prop :=
  ∀ (p : Word) (a : ArrWords) (s : State),
    encode (.arrInit p a) = ⟨0x04000000#32, p :: a.toList⟩ ∧
    (16 ≤ p.toNat → exec (.arrInit p a) s = .next (faultEntry s 0x02#8 0x04000000#32)) ∧
    (p.toNat < 16 → (∀ i, arrGet a i = 0) → exec (.arrInit p a) s = .next (faultEntry s 0x01#8 0x04000000#32)) ∧
    (p.toNat < 16 → (∃ i, arrGet a i ≠ 0) →
      exec (.arrInit p a) s =
        .next { s with arr := { a := a, p := BitVec.ofNat 4 p.toNat, v := true }, response := okResponse none })

/-- R77, R78, R68: the pointer is `PTR_MAP` of the expander's first word, by default its top four bits; the sixteen words
after it fill the slots in ascending order. -/
def Obligations.ArrSeedAndHost : Prop :=
  (∀ (p : Params) (w : Word), p.ptrMap = .topFour → (ptrMap p w).toNat = w.toNat / 2 ^ 60) ∧
  ∀ s : State, ∃ words : Word → ArrWords,
    (∀ x, ∀ i : BitVec 4, arrGet (words x) i = expanderWord s.params x (i.toNat + 1)) ∧
    (let seeded (x : Word) (t : State) : State :=
       { t with arr := { a := words x, p := ptrMap s.params (expanderWord s.params x 0), v := true },
                response := okResponse none }
     (∀ x, encode (.arrSeed x) = ⟨0x04010000#32, [x]⟩) ∧ encode .arrHost = ⟨0x04020000#32, []⟩ ∧
     (∀ x, exec (.arrSeed x) s = .next (seeded x s)) ∧
     (∀ h ws, s.hrand = h :: ws → exec .arrHost s = .next (seeded h { s with hrand := ws })) ∧
     (s.hrand = [] → ∃ h, exec .arrHost s = .next (seeded h { s with draws := s.draws + 1 })))

/-- R96 to R98: the word is read at the advanced pointer; two of the sixteen words change. -/
def Obligations.ArrNextDraws : Prop :=
  ∀ s : State,
    (encode .arrNextSS = ⟨0x04030200#32, []⟩ ∧ encode .arrNextS = ⟨0x04030300#32, []⟩) ∧
    (s.arr.v = false →
      exec .arrNextSS s = .next (faultEntry s 0x11#8 0x04030200#32) ∧
      exec .arrNextS s = .next (faultEntry s 0x11#8 0x04030300#32)) ∧
    (s.arr.v = true →
      let q := s.arr.p
      let p := q + 1
      let s0 := arrGet s.arr.a p
      let t := arrGet s.arr.a q ^^^ s0
      ∃ a : ArrWords,
        (∀ i, arrGet a i =
          if i = q then s0.rotateLeft 25 ^^^ t ^^^ (t <<< 27) else if i = p then t.rotateLeft 36 else arrGet s.arr.a i) ∧
        exec .arrNextSS s =
          .next { s with arr := { a := a, p := p, v := true }, response := okResponse (some ((s0 * 5).rotateLeft 7 * 9)) } ∧
        exec .arrNextS s =
          .next { s with arr := { a := a, p := p, v := true },
                         response := okResponse (some (s0 * 0x9e3779b97f4a7c13#64)) })

/-- R79: the sixteen words, not the pointer. -/
def Obligations.ArrEqCompares : Prop :=
  ∀ (a : ArrWords) (s : State),
    encode (.arrEq a) = ⟨0x04040000#32, a.toList⟩ ∧
    (s.arr.v = false → exec (.arrEq a) s = .next (faultEntry s 0x11#8 0x04040000#32)) ∧
    (s.arr.v = true → (∀ i, arrGet s.arr.a i = arrGet a i) →
      exec (.arrEq a) s = .next { s with response := okResponse (some 1) }) ∧
    (s.arr.v = true → (∃ i, arrGet s.arr.a i ≠ arrGet a i) →
      exec (.arrEq a) s = .next { s with response := okResponse (some 0) })

/-- R100: after `m` ARR.NEXT commands of either scramble the pointer has advanced by `m` modulo 16. -/
def Obligations.ArrPointerTrace : Prop :=
  ∀ (is : List Instr) (s : State), s.arr.v = true → (∀ i ∈ is, i = .arrNextS ∨ i = .arrNextSS) →
    (runCommands is s).1.arr.p.toNat = (s.arr.p.toNat + is.length) % 16

/-! ## QUAD -/

/-- R80. -/
def Obligations.QuadInitLoads : Prop :=
  ∀ (w : QuadWords) (s : State),
    encode (.quadInit w) = ⟨0x05000000#32, [w.s0, w.s1, w.s2, w.s3]⟩ ∧
    (w.s0 = 0 ∧ w.s1 = 0 ∧ w.s2 = 0 ∧ w.s3 = 0 →
      exec (.quadInit w) s = .next (faultEntry s 0x01#8 0x05000000#32)) ∧
    (w.s0 ≠ 0 ∨ w.s1 ≠ 0 ∨ w.s2 ≠ 0 ∨ w.s3 ≠ 0 →
      exec (.quadInit w) s = .next { s with quad := { s := w, v := true }, response := okResponse none })

/-- R81, R82. -/
def Obligations.QuadSeedAndHost : Prop :=
  ∀ s : State,
    let seeded (x : Word) (t : State) : State :=
      let w := expanderWord s.params x
      { t with quad := { s := { s0 := w 0, s1 := w 1, s2 := w 2, s3 := w 3 }, v := true },
               response := okResponse none }
    (∀ x, encode (.quadSeed x) = ⟨0x05010000#32, [x]⟩) ∧ encode .quadHost = ⟨0x05020000#32, []⟩ ∧
    (∀ x, exec (.quadSeed x) s = .next (seeded x s)) ∧
    (∀ h ws, s.hrand = h :: ws → exec .quadHost s = .next (seeded h { s with hrand := ws })) ∧
    (s.hrand = [] → ∃ h, exec .quadHost s = .next (seeded h { s with draws := s.draws + 1 }))

/-- R102 to R105. -/
def Obligations.QuadNextDraws : Prop :=
  ∀ s : State,
    (encode .quadNextP = ⟨0x05030000#32, []⟩ ∧ encode .quadNextPP = ⟨0x05030100#32, []⟩ ∧
      encode .quadNextSS = ⟨0x05030200#32, []⟩) ∧
    (s.quad.v = false →
      exec .quadNextP s = .next (faultEntry s 0x11#8 0x05030000#32) ∧
      exec .quadNextPP s = .next (faultEntry s 0x11#8 0x05030100#32) ∧
      exec .quadNextSS s = .next (faultEntry s 0x11#8 0x05030200#32)) ∧
    (s.quad.v = true →
      let s0 := s.quad.s.s0
      let s1 := s.quad.s.s1
      let s2 := s.quad.s.s2
      let s3 := s.quad.s.s3
      let left (w : Word) : State :=
        { s with
          quad := { s := { s0 := s0 ^^^ s3 ^^^ s1, s1 := s1 ^^^ s2 ^^^ s0, s2 := s2 ^^^ s0 ^^^ (s1 <<< 17),
                           s3 := (s3 ^^^ s1).rotateLeft 45 }, v := true },
          response := okResponse (some w) }
      exec .quadNextP s = .next (left (s0 + s3)) ∧
      exec .quadNextPP s = .next (left ((s0 + s3).rotateLeft 23 + s0)) ∧
      exec .quadNextSS s = .next (left ((s1 * 5).rotateLeft 7 * 9)))

/-- R83. -/
def Obligations.QuadEqCompares : Prop :=
  ∀ (w : QuadWords) (s : State),
    encode (.quadEq w) = ⟨0x05040000#32, [w.s0, w.s1, w.s2, w.s3]⟩ ∧
    (s.quad.v = false → exec (.quadEq w) s = .next (faultEntry s 0x11#8 0x05040000#32)) ∧
    (s.quad.v = true →
      exec (.quadEq w) s = .next { s with response := okResponse (some (if s.quad.s = w then 1 else 0)) })

/-! ## OCT -/

/-- R84. -/
def Obligations.OctInitLoads : Prop :=
  ∀ (w : OctWords) (s : State),
    encode (.octInit w) = ⟨0x06000000#32, [w.s0, w.s1, w.s2, w.s3, w.s4, w.s5, w.s6, w.s7]⟩ ∧
    (w.s0 = 0 ∧ w.s1 = 0 ∧ w.s2 = 0 ∧ w.s3 = 0 ∧ w.s4 = 0 ∧ w.s5 = 0 ∧ w.s6 = 0 ∧ w.s7 = 0 →
      exec (.octInit w) s = .next (faultEntry s 0x01#8 0x06000000#32)) ∧
    (w.s0 ≠ 0 ∨ w.s1 ≠ 0 ∨ w.s2 ≠ 0 ∨ w.s3 ≠ 0 ∨ w.s4 ≠ 0 ∨ w.s5 ≠ 0 ∨ w.s6 ≠ 0 ∨ w.s7 ≠ 0 →
      exec (.octInit w) s = .next { s with oct := { s := w, v := true }, response := okResponse none })

/-- R85, R86. -/
def Obligations.OctSeedAndHost : Prop :=
  ∀ s : State,
    let seeded (x : Word) (t : State) : State :=
      let w := expanderWord s.params x
      { t with oct := { s := { s0 := w 0, s1 := w 1, s2 := w 2, s3 := w 3, s4 := w 4, s5 := w 5, s6 := w 6, s7 := w 7 },
                        v := true },
               response := okResponse none }
    (∀ x, encode (.octSeed x) = ⟨0x06010000#32, [x]⟩) ∧ encode .octHost = ⟨0x06020000#32, []⟩ ∧
    (∀ x, exec (.octSeed x) s = .next (seeded x s)) ∧
    (∀ h ws, s.hrand = h :: ws → exec .octHost s = .next (seeded h { s with hrand := ws })) ∧
    (s.hrand = [] → ∃ h, exec .octHost s = .next (seeded h { s with draws := s.draws + 1 }))

/-- R108 to R111. -/
def Obligations.OctNextDraws : Prop :=
  ∀ s : State,
    (encode .octNextP = ⟨0x06030000#32, []⟩ ∧ encode .octNextPP = ⟨0x06030100#32, []⟩ ∧
      encode .octNextSS = ⟨0x06030200#32, []⟩) ∧
    (s.oct.v = false →
      exec .octNextP s = .next (faultEntry s 0x11#8 0x06030000#32) ∧
      exec .octNextPP s = .next (faultEntry s 0x11#8 0x06030100#32) ∧
      exec .octNextSS s = .next (faultEntry s 0x11#8 0x06030200#32)) ∧
    (s.oct.v = true →
      let w := s.oct.s
      let left (r : Word) : State :=
        { s with
          oct := { s := { s0 := w.s0 ^^^ w.s6, s1 := w.s1 ^^^ w.s2 ^^^ w.s0, s2 := w.s2 ^^^ w.s0,
                          s3 := w.s3 ^^^ w.s4, s4 := w.s4 ^^^ w.s5 ^^^ w.s1, s5 := w.s5 ^^^ w.s1,
                          s6 := w.s6 ^^^ w.s7 ^^^ w.s3 ^^^ (w.s1 <<< 11),
                          s7 := (w.s7 ^^^ w.s3).rotateLeft 21 }, v := true },
          response := okResponse (some r) }
      exec .octNextP s = .next (left (w.s0 + w.s2)) ∧
      exec .octNextPP s = .next (left ((w.s0 + w.s2).rotateLeft 17 + w.s2)) ∧
      exec .octNextSS s = .next (left ((w.s1 * 5).rotateLeft 7 * 9)))

/-- R87. -/
def Obligations.OctEqCompares : Prop :=
  ∀ (w : OctWords) (s : State),
    encode (.octEq w) = ⟨0x06040000#32, [w.s0, w.s1, w.s2, w.s3, w.s4, w.s5, w.s6, w.s7]⟩ ∧
    (s.oct.v = false → exec (.octEq w) s = .next (faultEntry s 0x11#8 0x06040000#32)) ∧
    (s.oct.v = true →
      exec (.octEq w) s = .next { s with response := okResponse (some (if s.oct.s = w then 1 else 0)) })

/-! ## The generators together -/

/-- R102, R108: the closed forms are the source's sequential assignments. -/
def Obligations.SequentialFormsAgree : Prop :=
  (∀ w, quadUpdateSeq w = quadUpdate w) ∧ (∀ w, octUpdateSeq w = octUpdate w)

/-- R20: every class's update is a bijection of its state space that fixes the all-zero state. -/
def Obligations.UpdatesAreBijective : Prop :=
  (Function.Bijective pairUpdate ∧ ∀ w, pairValid w = false → pairUpdate w = w) ∧
  (Function.Bijective quadUpdate ∧ ∀ w, quadValid w = false → quadUpdate w = w) ∧
  (Function.Bijective octUpdate ∧ ∀ w, octValid w = false → octUpdate w = w) ∧
  (∀ (p : BitVec 4) (v : Bool),
    Function.Bijective (fun a => (arrUpdate { a := a, p := p, v := v }).a) ∧
    ∀ a, arrValid a = false → (arrUpdate { a := a, p := p, v := v }).a = a)

/-- R94 (d), R100, R106, R112: NEXT commands of one unit leave the same state and differ in the word answered only. -/
def Obligations.ScramblesShareTheUpdate : Prop :=
  ∀ (i j : Instr) (s : State), isDraw i = true → isDraw j = true → unitOf i = unitOf j → validBit? s i = some true →
    ∃ (t : State) (w w' : Word), exec i s = .next { t with response := okResponse (some w) } ∧
      exec j s = .next { t with response := okResponse (some w') }

/-- R94 (b): on a constructed bank a stream of NEXT commands of its unit never fails: every response is OK with a word. -/
def Obligations.DrawStreamsNeverFail : Prop :=
  ∀ (u : UnitName) (is : List Instr) (s : State),
    (∀ i ∈ is, isDraw i = true ∧ unitOf i = u ∧ validBit? s i = some true) →
      (runCommands is s).2.length = is.length ∧
      (∀ r ∈ (runCommands is s).2, ∃ w, r = okResponse (some w)) ∧ sameOutside u s (runCommands is s).1

/-- R89: two COREs with the same parameters that execute the same X.SEED, or X.HOST with the same word from HRAND, and
then the same NEXT commands of that class, hold the same bank and answer the same words, whatever state they were in. -/
def Obligations.SeededStreamsAreDeterministic : Prop :=
  ∀ (c : GenClass) (x : Word) (is : List Instr) (s t : State), s.params = t.params →
    (∀ i ∈ is, isDraw i = true ∧ unitOf i = classUnit c) →
      (let a := runCommands (seedCommand c x :: is) s
       let b := runCommands (seedCommand c x :: is) t
       a.2 = b.2 ∧ sameUnit (classUnit c) a.1 b.1) ∧
      (∀ ws vs, s.hrand = x :: ws → t.hrand = x :: vs →
        let a := runCommands ((Pseudo.new c).expand ++ is) s
        let b := runCommands ((Pseudo.new c).expand ++ is) t
        a.2 = b.2 ∧ sameUnit (classUnit c) a.1 b.1)

/-! ## ENT -/

/-- R115: the operand is a signed 64-bit number. -/
def Obligations.EntInitStartsEmpty : Prop :=
  ∀ (x : Word) (s : State),
    encode (.entInit x) = ⟨0x07000000#32, [x]⟩ ∧
    (x.toInt ≤ 0 → exec (.entInit x) s = .next (faultEntry s 0x03#8 0x07000000#32)) ∧
    (0 < x.toInt →
      ∃ d : BitVec 63, (d.toNat : Int) = x.toInt ∧
        exec (.entInit x) s = .next { s with ent := { d := d, t := [], n := 0, v := true }, response := okResponse none })

/-- R117, R128, R129: on a table whose keys strictly rise the key's count grows by 1, or it is inserted at 1, and no other
key's count changes; TABLE_FULL comes before COUNTER_OVERFLOW. -/
def Obligations.EntAddCounts : Prop :=
  ∀ (x : Word) (s : State),
    let full := tableHas s.ent.t x = false ∧ s.params.entCapacity = some s.ent.t.length
    encode (.entAdd x) = ⟨0x07010000#32, [x]⟩ ∧
    (s.ent.v = false → exec (.entAdd x) s = .next (faultEntry s 0x11#8 0x07010000#32)) ∧
    (s.ent.v = true → full → exec (.entAdd x) s = .next (faultEntry s 0x13#8 0x07010000#32)) ∧
    (s.ent.v = true → ¬full → s.ent.n.toNat = 2 ^ 64 - 1 →
      exec (.entAdd x) s = .next (faultEntry s 0x12#8 0x07010000#32)) ∧
    (s.ent.v = true → ¬full → s.ent.n.toNat ≠ 2 ^ 64 - 1 → s.ent.t.Pairwise (fun e f => e.1 < f.1) →
      ∃ t : Table,
        exec (.entAdd x) s = .next { s with ent := { s.ent with t := t, n := s.ent.n + 1 }, response := okResponse none } ∧
        t.Pairwise (fun e f => e.1 < f.1) ∧
        (∀ k, tableHas t k = (x == k || tableHas s.ent.t k)) ∧
        (∀ k, tableCount t k = if k = x then tableCount s.ent.t x + 1 else tableCount s.ent.t k) ∧
        t.length = if tableHas s.ent.t x then s.ent.t.length else s.ent.t.length + 1)

/-- R119, R122, R123, R124: the order of the checks, the free word without observations, and otherwise the value of
ENT_NUMERICS on `(ENT.D, ENT.T)`; nothing is written. -/
def Obligations.EntScoresAnswer : Prop :=
  ∀ s : State,
    (encode .entEntropy = ⟨0x07020000#32, []⟩ ∧ encode .entEfficiency = ⟨0x07030000#32, []⟩) ∧
    (s.ent.v = false →
      exec .entEntropy s = .next (faultEntry s 0x11#8 0x07020000#32) ∧
      exec .entEfficiency s = .next (faultEntry s 0x11#8 0x07030000#32)) ∧
    (s.ent.v = true → s.ent.d.toNat < s.ent.t.length →
      exec .entEntropy s = .next (faultEntry s 0x04#8 0x07020000#32) ∧
      exec .entEfficiency s = .next (faultEntry s 0x04#8 0x07030000#32)) ∧
    (s.ent.v = true → s.ent.t.length ≤ s.ent.d.toNat → s.ent.n = 0 →
      (∃ w, exec .entEntropy s = .next { s with draws := s.draws + 1, response := okResponse (some w) }) ∧
      (∃ w, exec .entEfficiency s = .next { s with draws := s.draws + 1, response := okResponse (some w) })) ∧
    (s.ent.v = true → s.ent.t.length ≤ s.ent.d.toNat → s.ent.n ≠ 0 →
      exec .entEntropy s =
        .next { s with response := okResponse (some (entropyWord s.params s.ent.d s.ent.t)) } ∧
      exec .entEfficiency s =
        .next { s with response := okResponse (some (efficiencyWord s.params s.ent.d s.ent.t)) })

/-- R121, R122: under the reference evaluation one distinct key, however often seen and whatever the domain, scores the
pattern of -0.0. -/
def Obligations.OneKeyScoresNegativeZero : Prop :=
  ∀ (s : State) (k c : Word), s.ent.v = true → s.params.numerics = .reference → s.ent.n ≠ 0 → s.ent.d ≠ 0 → c ≠ 0 →
    s.ent.t = [(k, c)] →
      exec .entEntropy s = .next { s with response := okResponse (some 0x8000000000000000#64) }

/-- R125: with domain size 1 and one key, ENT.EFFICIENCY answers OK with some NaN under the reference evaluation. -/
def Obligations.DomainOneEfficiencyIsNan : Prop :=
  ∀ (s : State) (k c : Word), s.ent.v = true → s.params.numerics = .reference → s.ent.n ≠ 0 → s.ent.d = 1 → c ≠ 0 →
    s.ent.t = [(k, c)] →
      ∃ w, isNanWord w ∧ exec .entEfficiency s = .next { s with response := okResponse (some w) }

/-- R116: only ENT.INIT writes the domain, and only ENT.INIT and ENT.ADD change the estimator at all. -/
def Obligations.DomainIsFixed : Prop :=
  ∀ (i : Instr) (s t : State), exec i s = .next t → (∀ x, i ≠ .entInit x) →
    t.ent.d = s.ent.d ∧ t.ent.v = s.ent.v ∧ ((∀ x, i ≠ .entAdd x) → t.ent = s.ent)

/-- R127, R118: ENT.ADDN of two rearrangements of the same observations leaves the same state, and so the same scores,
as long as no element faults. -/
def Obligations.ObservationsCommute : Prop :=
  ∀ (vs ws : List Word) (s : State), s.ent.t.Pairwise (fun e f => e.1 < f.1) → s.fault.halt = false → vs.Perm ws →
    (runCommands (Pseudo.entAddn vs).expand s).1.fault = s.fault →
    (runCommands (Pseudo.entAddn ws).expand s).1.fault = s.fault →
      (runCommands (Pseudo.entAddn vs).expand s).1 = (runCommands (Pseudo.entAddn ws).expand s).1

/-- R120: in exact arithmetic the scaling by `1/D` cancels: the real score is the entropy of `c_k / N`. -/
def Obligations.RealScalingCancels : Prop :=
  ∀ (d : Nat) (t : Table), 0 < d →
    entropyReal d t =
      -((t.map (fun e => (e.2.toNat : ℝ) / (tableTotal t : ℝ) *
          Real.logb 2 ((e.2.toNat : ℝ) / (tableTotal t : ℝ)))).sum)

/-- R126: the bounds of the real scores, for a table with at least one entry, no zero count and at most `d` keys. -/
def Obligations.RealScoreBounds : Prop :=
  ∀ (d : Nat) (t : Table), (∀ e ∈ t, e.2 ≠ 0) → t ≠ [] → t.length ≤ d →
    0 ≤ entropyReal d t ∧ entropyReal d t ≤ Real.logb 2 t.length ∧ Real.logb 2 t.length ≤ Real.logb 2 d ∧
      (2 ≤ d → 0 ≤ efficiencyReal d t ∧ efficiencyReal d t ≤ 1)

/-! ## The whole machine -/

/-- R29: a command of one unit writes no other unit's state, nor the port or the parameters, and only X.HOST takes a word
from HRAND; nor does it read another unit's state: in two states that agree on its own unit (and on what comes from
outside) it leaves the same there and gives the same response. -/
def Obligations.UnitsAreIndependent : Prop :=
  ∀ (i : Instr) (s s' : State),
    ∃ t, exec i s = .next t ∧ sameOutside (unitOf i) s t ∧ t.port = s.port ∧ t.params = s.params ∧
      (isHost i = false → t.hrand = s.hrand) ∧
      (sameUnit (unitOf i) s s' → s.hrand = s'.hrand → s.draws = s'.draws → s.params = s'.params →
        ∃ t', exec i s' = .next t' ∧ sameUnit (unitOf i) t t' ∧ t.response = t'.response)

/-- R21: nothing clears a valid bit but reset. -/
def Obligations.ValidBitsAreKept : Prop :=
  ∀ s t : State, step s = .next t → (∀ rest, s.port ≠ .reset :: rest) →
    (s.sm.v = true → t.sm.v = true) ∧ (s.pair.v = true → t.pair.v = true) ∧ (s.arr.v = true → t.arr.v = true) ∧
      (s.quad.v = true → t.quad.v = true) ∧ (s.oct.v = true → t.oct.v = true) ∧ (s.ent.v = true → t.ent.v = true)

/-- R18, R20, R22, R24, R42: every step keeps the invariant. -/
def Obligations.StepKeepsInvariant : Prop := ∀ s t : State, s.Inv → step s = .next t → t.Inv

/-- The state after reset meets the invariant. -/
def Obligations.ResetMeetsInvariant : Prop := State.reset.Inv

/-- R28, U10: what the data registers of unconstructed units hold shows in no outcome: two states that differ in nothing
else stay so, and answer the same, step by step. -/
def Obligations.UnconstructedDataIsUnobservable : Prop :=
  ∀ s t : State, indistinguishable s t → sameOutcome (step s) (step t)
end

