-- ==== Sys2Proof/Laws/Decode.lean ====
section
/-! SUPPORT. The command words and the field tables of spec/30_encoding.md agree, command by command. -/

namespace Sys2Proof

/-- Every command's word has legal fields (R41 to R45). -/
theorem word_wordLegal (o : Opcode) : (Request.mk o.word []).wordLegal = true := by
  cases o <;> decide

/-- The operand count of R46's table is the one the fields ask for. -/
theorem fieldArity_word (o : Opcode) :
    fieldArity (Request.mk o.word []).unit (Request.mk o.word []).fn = o.arity := by
  cases o <;> decide

/-- A command's word with as many operands as R46 gives it is well formed. -/
theorem wellFormed_of_arity (o : Opcode) (ops : List Word) (h : ops.length = o.arity) :
    (Request.mk o.word ops).wellFormed = true := by
  have hw : (Request.mk o.word ops).wordLegal = true := word_wordLegal o
  have ha : fieldArity (Request.mk o.word ops).unit (Request.mk o.word ops).fn = o.arity := fieldArity_word o
  simp [Request.wellFormed, hw, ha, h]

/-- The word of a command names that command (R48). -/
theorem ofWord?_word (o : Opcode) : Opcode.ofWord? o.word = some o := by
  cases o <;> decide

/-- A word names a command only if it is that command's word (R49). -/
theorem word_of_ofWord? {cw : CmdWord} {o : Opcode} (h : Opcode.ofWord? cw = some o) : o.word = cw := by
  simpa using List.find?_some h

end Sys2Proof
end

