-- ==== Sys2Proof/Laws/State.lean ====
section
/-! SUPPORT. One lemma per field per update of the state, true by rfl. The proofs split the state first, so that simp cites the
lemma: taken as definitional it would leave the kernel a comparison that does not end where an updated bank holds
computed words (Laws/Next.lean). -/

namespace Sys2Proof.Machine

/-! setSm -/

@[simp] theorem State.setSm_sm (s : State) (u : SmUnit) : (s.setSm u).sm = u := by cases s; rfl
@[simp] theorem State.setSm_pair (s : State) (u : SmUnit) : (s.setSm u).pair = s.pair := by cases s; rfl
@[simp] theorem State.setSm_arr (s : State) (u : SmUnit) : (s.setSm u).arr = s.arr := by cases s; rfl
@[simp] theorem State.setSm_quad (s : State) (u : SmUnit) : (s.setSm u).quad = s.quad := by cases s; rfl
@[simp] theorem State.setSm_oct (s : State) (u : SmUnit) : (s.setSm u).oct = s.oct := by cases s; rfl
@[simp] theorem State.setSm_ent (s : State) (u : SmUnit) : (s.setSm u).ent = s.ent := by cases s; rfl
@[simp] theorem State.setSm_fault (s : State) (u : SmUnit) : (s.setSm u).fault = s.fault := by cases s; rfl
@[simp] theorem State.setSm_port (s : State) (u : SmUnit) : (s.setSm u).port = s.port := by cases s; rfl
@[simp] theorem State.setSm_response (s : State) (u : SmUnit) : (s.setSm u).response = s.response := by cases s; rfl
@[simp] theorem State.setSm_hrand (s : State) (u : SmUnit) : (s.setSm u).hrand = s.hrand := by cases s; rfl
@[simp] theorem State.setSm_draws (s : State) (u : SmUnit) : (s.setSm u).draws = s.draws := by cases s; rfl
@[simp] theorem State.setSm_params (s : State) (u : SmUnit) : (s.setSm u).params = s.params := by cases s; rfl

/-! setPair -/

@[simp] theorem State.setPair_sm (s : State) (b : PairBank) : (s.setPair b).sm = s.sm := by cases s; rfl
@[simp] theorem State.setPair_pair (s : State) (b : PairBank) : (s.setPair b).pair = b := by cases s; rfl
@[simp] theorem State.setPair_arr (s : State) (b : PairBank) : (s.setPair b).arr = s.arr := by cases s; rfl
@[simp] theorem State.setPair_quad (s : State) (b : PairBank) : (s.setPair b).quad = s.quad := by cases s; rfl
@[simp] theorem State.setPair_oct (s : State) (b : PairBank) : (s.setPair b).oct = s.oct := by cases s; rfl
@[simp] theorem State.setPair_ent (s : State) (b : PairBank) : (s.setPair b).ent = s.ent := by cases s; rfl
@[simp] theorem State.setPair_fault (s : State) (b : PairBank) : (s.setPair b).fault = s.fault := by cases s; rfl
@[simp] theorem State.setPair_port (s : State) (b : PairBank) : (s.setPair b).port = s.port := by cases s; rfl
@[simp] theorem State.setPair_response (s : State) (b : PairBank) : (s.setPair b).response = s.response := by cases s; rfl
@[simp] theorem State.setPair_hrand (s : State) (b : PairBank) : (s.setPair b).hrand = s.hrand := by cases s; rfl
@[simp] theorem State.setPair_draws (s : State) (b : PairBank) : (s.setPair b).draws = s.draws := by cases s; rfl
@[simp] theorem State.setPair_params (s : State) (b : PairBank) : (s.setPair b).params = s.params := by cases s; rfl

/-! setArr -/

@[simp] theorem State.setArr_sm (s : State) (b : ArrBank) : (s.setArr b).sm = s.sm := by cases s; rfl
@[simp] theorem State.setArr_pair (s : State) (b : ArrBank) : (s.setArr b).pair = s.pair := by cases s; rfl
@[simp] theorem State.setArr_arr (s : State) (b : ArrBank) : (s.setArr b).arr = b := by cases s; rfl
@[simp] theorem State.setArr_quad (s : State) (b : ArrBank) : (s.setArr b).quad = s.quad := by cases s; rfl
@[simp] theorem State.setArr_oct (s : State) (b : ArrBank) : (s.setArr b).oct = s.oct := by cases s; rfl
@[simp] theorem State.setArr_ent (s : State) (b : ArrBank) : (s.setArr b).ent = s.ent := by cases s; rfl
@[simp] theorem State.setArr_fault (s : State) (b : ArrBank) : (s.setArr b).fault = s.fault := by cases s; rfl
@[simp] theorem State.setArr_port (s : State) (b : ArrBank) : (s.setArr b).port = s.port := by cases s; rfl
@[simp] theorem State.setArr_response (s : State) (b : ArrBank) : (s.setArr b).response = s.response := by cases s; rfl
@[simp] theorem State.setArr_hrand (s : State) (b : ArrBank) : (s.setArr b).hrand = s.hrand := by cases s; rfl
@[simp] theorem State.setArr_draws (s : State) (b : ArrBank) : (s.setArr b).draws = s.draws := by cases s; rfl
@[simp] theorem State.setArr_params (s : State) (b : ArrBank) : (s.setArr b).params = s.params := by cases s; rfl

/-! setQuad -/

@[simp] theorem State.setQuad_sm (s : State) (b : QuadBank) : (s.setQuad b).sm = s.sm := by cases s; rfl
@[simp] theorem State.setQuad_pair (s : State) (b : QuadBank) : (s.setQuad b).pair = s.pair := by cases s; rfl
@[simp] theorem State.setQuad_arr (s : State) (b : QuadBank) : (s.setQuad b).arr = s.arr := by cases s; rfl
@[simp] theorem State.setQuad_quad (s : State) (b : QuadBank) : (s.setQuad b).quad = b := by cases s; rfl
@[simp] theorem State.setQuad_oct (s : State) (b : QuadBank) : (s.setQuad b).oct = s.oct := by cases s; rfl
@[simp] theorem State.setQuad_ent (s : State) (b : QuadBank) : (s.setQuad b).ent = s.ent := by cases s; rfl
@[simp] theorem State.setQuad_fault (s : State) (b : QuadBank) : (s.setQuad b).fault = s.fault := by cases s; rfl
@[simp] theorem State.setQuad_port (s : State) (b : QuadBank) : (s.setQuad b).port = s.port := by cases s; rfl
@[simp] theorem State.setQuad_response (s : State) (b : QuadBank) : (s.setQuad b).response = s.response := by cases s; rfl
@[simp] theorem State.setQuad_hrand (s : State) (b : QuadBank) : (s.setQuad b).hrand = s.hrand := by cases s; rfl
@[simp] theorem State.setQuad_draws (s : State) (b : QuadBank) : (s.setQuad b).draws = s.draws := by cases s; rfl
@[simp] theorem State.setQuad_params (s : State) (b : QuadBank) : (s.setQuad b).params = s.params := by cases s; rfl

/-! setOct -/

@[simp] theorem State.setOct_sm (s : State) (b : OctBank) : (s.setOct b).sm = s.sm := by cases s; rfl
@[simp] theorem State.setOct_pair (s : State) (b : OctBank) : (s.setOct b).pair = s.pair := by cases s; rfl
@[simp] theorem State.setOct_arr (s : State) (b : OctBank) : (s.setOct b).arr = s.arr := by cases s; rfl
@[simp] theorem State.setOct_quad (s : State) (b : OctBank) : (s.setOct b).quad = s.quad := by cases s; rfl
@[simp] theorem State.setOct_oct (s : State) (b : OctBank) : (s.setOct b).oct = b := by cases s; rfl
@[simp] theorem State.setOct_ent (s : State) (b : OctBank) : (s.setOct b).ent = s.ent := by cases s; rfl
@[simp] theorem State.setOct_fault (s : State) (b : OctBank) : (s.setOct b).fault = s.fault := by cases s; rfl
@[simp] theorem State.setOct_port (s : State) (b : OctBank) : (s.setOct b).port = s.port := by cases s; rfl
@[simp] theorem State.setOct_response (s : State) (b : OctBank) : (s.setOct b).response = s.response := by cases s; rfl
@[simp] theorem State.setOct_hrand (s : State) (b : OctBank) : (s.setOct b).hrand = s.hrand := by cases s; rfl
@[simp] theorem State.setOct_draws (s : State) (b : OctBank) : (s.setOct b).draws = s.draws := by cases s; rfl
@[simp] theorem State.setOct_params (s : State) (b : OctBank) : (s.setOct b).params = s.params := by cases s; rfl

/-! setEnt -/

@[simp] theorem State.setEnt_sm (s : State) (u : EntUnit) : (s.setEnt u).sm = s.sm := by cases s; rfl
@[simp] theorem State.setEnt_pair (s : State) (u : EntUnit) : (s.setEnt u).pair = s.pair := by cases s; rfl
@[simp] theorem State.setEnt_arr (s : State) (u : EntUnit) : (s.setEnt u).arr = s.arr := by cases s; rfl
@[simp] theorem State.setEnt_quad (s : State) (u : EntUnit) : (s.setEnt u).quad = s.quad := by cases s; rfl
@[simp] theorem State.setEnt_oct (s : State) (u : EntUnit) : (s.setEnt u).oct = s.oct := by cases s; rfl
@[simp] theorem State.setEnt_ent (s : State) (u : EntUnit) : (s.setEnt u).ent = u := by cases s; rfl
@[simp] theorem State.setEnt_fault (s : State) (u : EntUnit) : (s.setEnt u).fault = s.fault := by cases s; rfl
@[simp] theorem State.setEnt_port (s : State) (u : EntUnit) : (s.setEnt u).port = s.port := by cases s; rfl
@[simp] theorem State.setEnt_response (s : State) (u : EntUnit) : (s.setEnt u).response = s.response := by cases s; rfl
@[simp] theorem State.setEnt_hrand (s : State) (u : EntUnit) : (s.setEnt u).hrand = s.hrand := by cases s; rfl
@[simp] theorem State.setEnt_draws (s : State) (u : EntUnit) : (s.setEnt u).draws = s.draws := by cases s; rfl
@[simp] theorem State.setEnt_params (s : State) (u : EntUnit) : (s.setEnt u).params = s.params := by cases s; rfl

/-! setFault -/

@[simp] theorem State.setFault_sm (s : State) (f : FaultReg) : (s.setFault f).sm = s.sm := by cases s; rfl
@[simp] theorem State.setFault_pair (s : State) (f : FaultReg) : (s.setFault f).pair = s.pair := by cases s; rfl
@[simp] theorem State.setFault_arr (s : State) (f : FaultReg) : (s.setFault f).arr = s.arr := by cases s; rfl
@[simp] theorem State.setFault_quad (s : State) (f : FaultReg) : (s.setFault f).quad = s.quad := by cases s; rfl
@[simp] theorem State.setFault_oct (s : State) (f : FaultReg) : (s.setFault f).oct = s.oct := by cases s; rfl
@[simp] theorem State.setFault_ent (s : State) (f : FaultReg) : (s.setFault f).ent = s.ent := by cases s; rfl
@[simp] theorem State.setFault_fault (s : State) (f : FaultReg) : (s.setFault f).fault = f := by cases s; rfl
@[simp] theorem State.setFault_port (s : State) (f : FaultReg) : (s.setFault f).port = s.port := by cases s; rfl
@[simp] theorem State.setFault_response (s : State) (f : FaultReg) : (s.setFault f).response = s.response := by cases s; rfl
@[simp] theorem State.setFault_hrand (s : State) (f : FaultReg) : (s.setFault f).hrand = s.hrand := by cases s; rfl
@[simp] theorem State.setFault_draws (s : State) (f : FaultReg) : (s.setFault f).draws = s.draws := by cases s; rfl
@[simp] theorem State.setFault_params (s : State) (f : FaultReg) : (s.setFault f).params = s.params := by cases s; rfl

/-! setPort -/

@[simp] theorem State.setPort_sm (s : State) (es : List HostEvent) : (s.setPort es).sm = s.sm := by cases s; rfl
@[simp] theorem State.setPort_pair (s : State) (es : List HostEvent) : (s.setPort es).pair = s.pair := by cases s; rfl
@[simp] theorem State.setPort_arr (s : State) (es : List HostEvent) : (s.setPort es).arr = s.arr := by cases s; rfl
@[simp] theorem State.setPort_quad (s : State) (es : List HostEvent) : (s.setPort es).quad = s.quad := by cases s; rfl
@[simp] theorem State.setPort_oct (s : State) (es : List HostEvent) : (s.setPort es).oct = s.oct := by cases s; rfl
@[simp] theorem State.setPort_ent (s : State) (es : List HostEvent) : (s.setPort es).ent = s.ent := by cases s; rfl
@[simp] theorem State.setPort_fault (s : State) (es : List HostEvent) : (s.setPort es).fault = s.fault := by cases s; rfl
@[simp] theorem State.setPort_port (s : State) (es : List HostEvent) : (s.setPort es).port = es := by cases s; rfl
@[simp] theorem State.setPort_response (s : State) (es : List HostEvent) : (s.setPort es).response = s.response := by cases s; rfl
@[simp] theorem State.setPort_hrand (s : State) (es : List HostEvent) : (s.setPort es).hrand = s.hrand := by cases s; rfl
@[simp] theorem State.setPort_draws (s : State) (es : List HostEvent) : (s.setPort es).draws = s.draws := by cases s; rfl
@[simp] theorem State.setPort_params (s : State) (es : List HostEvent) : (s.setPort es).params = s.params := by cases s; rfl

/-! setResponse -/

@[simp] theorem State.setResponse_sm (s : State) (r : Option Response) : (s.setResponse r).sm = s.sm := by cases s; rfl
@[simp] theorem State.setResponse_pair (s : State) (r : Option Response) : (s.setResponse r).pair = s.pair := by cases s; rfl
@[simp] theorem State.setResponse_arr (s : State) (r : Option Response) : (s.setResponse r).arr = s.arr := by cases s; rfl
@[simp] theorem State.setResponse_quad (s : State) (r : Option Response) : (s.setResponse r).quad = s.quad := by cases s; rfl
@[simp] theorem State.setResponse_oct (s : State) (r : Option Response) : (s.setResponse r).oct = s.oct := by cases s; rfl
@[simp] theorem State.setResponse_ent (s : State) (r : Option Response) : (s.setResponse r).ent = s.ent := by cases s; rfl
@[simp] theorem State.setResponse_fault (s : State) (r : Option Response) : (s.setResponse r).fault = s.fault := by cases s; rfl
@[simp] theorem State.setResponse_port (s : State) (r : Option Response) : (s.setResponse r).port = s.port := by cases s; rfl
@[simp] theorem State.setResponse_response (s : State) (r : Option Response) : (s.setResponse r).response = r := by cases s; rfl
@[simp] theorem State.setResponse_hrand (s : State) (r : Option Response) : (s.setResponse r).hrand = s.hrand := by cases s; rfl
@[simp] theorem State.setResponse_draws (s : State) (r : Option Response) : (s.setResponse r).draws = s.draws := by cases s; rfl
@[simp] theorem State.setResponse_params (s : State) (r : Option Response) : (s.setResponse r).params = s.params := by cases s; rfl

/-! setHrand -/

@[simp] theorem State.setHrand_sm (s : State) (ws : List Word) : (s.setHrand ws).sm = s.sm := by cases s; rfl
@[simp] theorem State.setHrand_pair (s : State) (ws : List Word) : (s.setHrand ws).pair = s.pair := by cases s; rfl
@[simp] theorem State.setHrand_arr (s : State) (ws : List Word) : (s.setHrand ws).arr = s.arr := by cases s; rfl
@[simp] theorem State.setHrand_quad (s : State) (ws : List Word) : (s.setHrand ws).quad = s.quad := by cases s; rfl
@[simp] theorem State.setHrand_oct (s : State) (ws : List Word) : (s.setHrand ws).oct = s.oct := by cases s; rfl
@[simp] theorem State.setHrand_ent (s : State) (ws : List Word) : (s.setHrand ws).ent = s.ent := by cases s; rfl
@[simp] theorem State.setHrand_fault (s : State) (ws : List Word) : (s.setHrand ws).fault = s.fault := by cases s; rfl
@[simp] theorem State.setHrand_port (s : State) (ws : List Word) : (s.setHrand ws).port = s.port := by cases s; rfl
@[simp] theorem State.setHrand_response (s : State) (ws : List Word) : (s.setHrand ws).response = s.response := by cases s; rfl
@[simp] theorem State.setHrand_hrand (s : State) (ws : List Word) : (s.setHrand ws).hrand = ws := by cases s; rfl
@[simp] theorem State.setHrand_draws (s : State) (ws : List Word) : (s.setHrand ws).draws = s.draws := by cases s; rfl
@[simp] theorem State.setHrand_params (s : State) (ws : List Word) : (s.setHrand ws).params = s.params := by cases s; rfl

/-! setDraws -/

@[simp] theorem State.setDraws_sm (s : State) (n : Nat) : (s.setDraws n).sm = s.sm := by cases s; rfl
@[simp] theorem State.setDraws_pair (s : State) (n : Nat) : (s.setDraws n).pair = s.pair := by cases s; rfl
@[simp] theorem State.setDraws_arr (s : State) (n : Nat) : (s.setDraws n).arr = s.arr := by cases s; rfl
@[simp] theorem State.setDraws_quad (s : State) (n : Nat) : (s.setDraws n).quad = s.quad := by cases s; rfl
@[simp] theorem State.setDraws_oct (s : State) (n : Nat) : (s.setDraws n).oct = s.oct := by cases s; rfl
@[simp] theorem State.setDraws_ent (s : State) (n : Nat) : (s.setDraws n).ent = s.ent := by cases s; rfl
@[simp] theorem State.setDraws_fault (s : State) (n : Nat) : (s.setDraws n).fault = s.fault := by cases s; rfl
@[simp] theorem State.setDraws_port (s : State) (n : Nat) : (s.setDraws n).port = s.port := by cases s; rfl
@[simp] theorem State.setDraws_response (s : State) (n : Nat) : (s.setDraws n).response = s.response := by cases s; rfl
@[simp] theorem State.setDraws_hrand (s : State) (n : Nat) : (s.setDraws n).hrand = s.hrand := by cases s; rfl
@[simp] theorem State.setDraws_draws (s : State) (n : Nat) : (s.setDraws n).draws = n := by cases s; rfl
@[simp] theorem State.setDraws_params (s : State) (n : Nat) : (s.setDraws n).params = s.params := by cases s; rfl

/-! answer, raise, answerHalted, assertReset -/

@[simp] theorem State.answer_sm (s : State) (w : Option Word) : (s.answer w).sm = s.sm := by cases s; rfl
@[simp] theorem State.answer_pair (s : State) (w : Option Word) : (s.answer w).pair = s.pair := by cases s; rfl
@[simp] theorem State.answer_arr (s : State) (w : Option Word) : (s.answer w).arr = s.arr := by cases s; rfl
@[simp] theorem State.answer_quad (s : State) (w : Option Word) : (s.answer w).quad = s.quad := by cases s; rfl
@[simp] theorem State.answer_oct (s : State) (w : Option Word) : (s.answer w).oct = s.oct := by cases s; rfl
@[simp] theorem State.answer_ent (s : State) (w : Option Word) : (s.answer w).ent = s.ent := by cases s; rfl
@[simp] theorem State.answer_fault (s : State) (w : Option Word) : (s.answer w).fault = s.fault := by cases s; rfl
@[simp] theorem State.answer_port (s : State) (w : Option Word) : (s.answer w).port = s.port := by cases s; rfl
@[simp] theorem State.answer_response (s : State) (w : Option Word) : (s.answer w).response = some { status := .ok, cause := 0, result := w } := by cases s; rfl
@[simp] theorem State.answer_hrand (s : State) (w : Option Word) : (s.answer w).hrand = s.hrand := by cases s; rfl
@[simp] theorem State.answer_draws (s : State) (w : Option Word) : (s.answer w).draws = s.draws := by cases s; rfl
@[simp] theorem State.answer_params (s : State) (w : Option Word) : (s.answer w).params = s.params := by cases s; rfl

@[simp] theorem State.raise_sm (s : State) (c : Cause) (cw : CmdWord) : (s.raise c cw).sm = s.sm := by cases s; rfl
@[simp] theorem State.raise_pair (s : State) (c : Cause) (cw : CmdWord) : (s.raise c cw).pair = s.pair := by cases s; rfl
@[simp] theorem State.raise_arr (s : State) (c : Cause) (cw : CmdWord) : (s.raise c cw).arr = s.arr := by cases s; rfl
@[simp] theorem State.raise_quad (s : State) (c : Cause) (cw : CmdWord) : (s.raise c cw).quad = s.quad := by cases s; rfl
@[simp] theorem State.raise_oct (s : State) (c : Cause) (cw : CmdWord) : (s.raise c cw).oct = s.oct := by cases s; rfl
@[simp] theorem State.raise_ent (s : State) (c : Cause) (cw : CmdWord) : (s.raise c cw).ent = s.ent := by cases s; rfl
@[simp] theorem State.raise_fault (s : State) (c : Cause) (cw : CmdWord) : (s.raise c cw).fault = { halt := true, cause := c.code, cw := cw } := by cases s; rfl
@[simp] theorem State.raise_port (s : State) (c : Cause) (cw : CmdWord) : (s.raise c cw).port = s.port := by cases s; rfl
@[simp] theorem State.raise_response (s : State) (c : Cause) (cw : CmdWord) : (s.raise c cw).response = some { status := .fault, cause := c.code, result := none } := by cases s; rfl
@[simp] theorem State.raise_hrand (s : State) (c : Cause) (cw : CmdWord) : (s.raise c cw).hrand = s.hrand := by cases s; rfl
@[simp] theorem State.raise_draws (s : State) (c : Cause) (cw : CmdWord) : (s.raise c cw).draws = s.draws := by cases s; rfl
@[simp] theorem State.raise_params (s : State) (c : Cause) (cw : CmdWord) : (s.raise c cw).params = s.params := by cases s; rfl

@[simp] theorem State.answerHalted_sm (s : State) : s.answerHalted.sm = s.sm := by cases s; rfl
@[simp] theorem State.answerHalted_pair (s : State) : s.answerHalted.pair = s.pair := by cases s; rfl
@[simp] theorem State.answerHalted_arr (s : State) : s.answerHalted.arr = s.arr := by cases s; rfl
@[simp] theorem State.answerHalted_quad (s : State) : s.answerHalted.quad = s.quad := by cases s; rfl
@[simp] theorem State.answerHalted_oct (s : State) : s.answerHalted.oct = s.oct := by cases s; rfl
@[simp] theorem State.answerHalted_ent (s : State) : s.answerHalted.ent = s.ent := by cases s; rfl
@[simp] theorem State.answerHalted_fault (s : State) : s.answerHalted.fault = s.fault := by cases s; rfl
@[simp] theorem State.answerHalted_port (s : State) : s.answerHalted.port = s.port := by cases s; rfl
@[simp] theorem State.answerHalted_response (s : State) : s.answerHalted.response = some { status := .halted, cause := s.fault.cause, result := none } := by cases s; rfl
@[simp] theorem State.answerHalted_hrand (s : State) : s.answerHalted.hrand = s.hrand := by cases s; rfl
@[simp] theorem State.answerHalted_draws (s : State) : s.answerHalted.draws = s.draws := by cases s; rfl
@[simp] theorem State.answerHalted_params (s : State) : s.answerHalted.params = s.params := by cases s; rfl

@[simp] theorem State.assertReset_sm (s : State) : s.assertReset.sm = State.reset.sm := by cases s; rfl
@[simp] theorem State.assertReset_pair (s : State) : s.assertReset.pair = State.reset.pair := by cases s; rfl
@[simp] theorem State.assertReset_arr (s : State) : s.assertReset.arr = State.reset.arr := by cases s; rfl
@[simp] theorem State.assertReset_quad (s : State) : s.assertReset.quad = State.reset.quad := by cases s; rfl
@[simp] theorem State.assertReset_oct (s : State) : s.assertReset.oct = State.reset.oct := by cases s; rfl
@[simp] theorem State.assertReset_ent (s : State) : s.assertReset.ent = State.reset.ent := by cases s; rfl
@[simp] theorem State.assertReset_fault (s : State) : s.assertReset.fault = State.reset.fault := by cases s; rfl
@[simp] theorem State.assertReset_port (s : State) : s.assertReset.port = s.port := by cases s; rfl
@[simp] theorem State.assertReset_response (s : State) : s.assertReset.response = State.reset.response := by cases s; rfl
@[simp] theorem State.assertReset_hrand (s : State) : s.assertReset.hrand = s.hrand := by cases s; rfl
@[simp] theorem State.assertReset_draws (s : State) : s.assertReset.draws = s.draws := by cases s; rfl
@[simp] theorem State.assertReset_params (s : State) : s.assertReset.params = s.params := by cases s; rfl

/-! Putting an event on the port and taking it off again gives the state back. -/

@[simp] theorem State.setPort_setPort (s : State) (es fs : List HostEvent) : (s.setPort es).setPort fs = s.setPort fs := by cases s; rfl
@[simp] theorem State.setPort_self (s : State) : s.setPort s.port = s := by cases s; rfl

end Sys2Proof.Machine
end

