-- ==== Sys2Proof/Laws/Ops.lean ====
section
/-! SUPPORT. What each shared operation can do, said once: the rotation, drawing from HRAND, the valid-bit check, operand
forms, the indexed access of ARR.A and the frequency table. -/

namespace Sys2Proof.Machine

/-- `rotl64` is core's rotation (R55). -/
theorem rotl64_eq_rotateLeft (x : Word) (k : Nat) (h : k < 64) : rotl64 x k = x.rotateLeft k := by
  simp [rotl64, BitVec.rotateLeft, BitVec.rotateLeftAux, Nat.mod_eq_of_lt h]

theorem whenConstructed_true (s : State) (o : Opcode) (rest : Result) : s.whenConstructed true o rest = rest := rfl

theorem whenConstructed_false (s : State) (o : Opcode) (rest : Result) :
    s.whenConstructed false o rest = .next (s.raise .notConstructed o.word) := rfl

/-- The valid-bit check either hands on or raises `NOT_CONSTRUCTED` (R131). -/
theorem whenConstructed_cases (s : State) (v : Bool) (o : Opcode) (rest : Result) :
    (v = true ∧ s.whenConstructed v o rest = rest) ∨
      (v = false ∧ s.whenConstructed v o rest = .next (s.raise .notConstructed o.word)) := by
  cases v
  · exact .inr ⟨rfl, rfl⟩
  · exact .inl ⟨rfl, rfl⟩

/-- `HRAND` hands out the next queued word, else a free value (R25). -/
theorem takeHrand_cases (s : State) :
    (∃ w ws, s.hrand = w :: ws ∧ s.takeHrand = (w, s.setHrand ws)) ∨
      (s.hrand = [] ∧ s.takeHrand = (Config.hrandWord s.draws, s.setDraws (s.draws + 1))) := by
  unfold State.takeHrand
  cases h : s.hrand with
  | nil => exact .inr ⟨rfl, rfl⟩
  | cons w ws => exact .inl ⟨w, ws, rfl, rfl⟩

/-- Taking a word from `HRAND` touches nothing but the input and the draw counter. -/
theorem takeHrand_frame (s : State) :
    ∃ ws n, s.takeHrand.2 = (s.setHrand ws).setDraws n := by
  obtain ⟨w, ws, -, h⟩ | ⟨-, h⟩ := takeHrand_cases s
  · exact ⟨ws, s.draws, by rw [h]; rfl⟩
  · exact ⟨s.hrand, s.draws + 1, by rw [h]; rfl⟩

/-- ROTL's amount is accepted exactly where `0 < k < 64` (R56). -/
theorem rotAmount?_eq_some (k : Word) (n : Nat) : rotAmount? k = some n ↔ (0 < k.toNat ∧ k.toNat < 64) ∧ k.toNat = n := by
  unfold rotAmount?
  split <;> simp_all

theorem rotAmount?_eq_none (k : Word) : rotAmount? k = none ↔ ¬(0 < k.toNat ∧ k.toNat < 64) := by
  unfold rotAmount?
  split <;> simp_all

/-- ARR.INIT's pointer is accepted exactly where `p < 16`, and keeps its value (R76). -/
theorem pointer?_eq_some (p : Word) (q : BitVec 4) : pointer? p = some q ↔ p.toNat < 16 ∧ p.setWidth 4 = q := by
  unfold pointer?
  split <;> simp_all

theorem pointer?_eq_none (p : Word) : pointer? p = none ↔ 16 ≤ p.toNat := by
  unfold pointer?
  split <;> simp_all

/-- ENT.INIT's domain is accepted exactly where it is a positive signed number (R115). -/
theorem domain?_eq_some (w : Word) (d : BitVec 63) : domain? w = some d ↔ 0 < w.toInt ∧ w.setWidth 63 = d := by
  unfold domain?
  split <;> simp_all

theorem domain?_eq_none (w : Word) : domain? w = none ↔ w.toInt ≤ 0 := by
  unfold domain?
  split
  · simpa using ‹0 < w.toInt›
  · simpa using ‹¬0 < w.toInt›

/-- A valid state is one that is not all zero (R65). -/
theorem pairValid_eq_false (w : PairWords) : pairValid w = false ↔ w.s0 = 0 ∧ w.s1 = 0 := by
  simp [pairValid, PairWords.toList]

theorem quadValid_eq_false (w : QuadWords) :
    quadValid w = false ↔ w.s0 = 0 ∧ w.s1 = 0 ∧ w.s2 = 0 ∧ w.s3 = 0 := by
  simp [quadValid, QuadWords.toList]

theorem octValid_eq_false (w : OctWords) :
    octValid w = false ↔ w.s0 = 0 ∧ w.s1 = 0 ∧ w.s2 = 0 ∧ w.s3 = 0 ∧ w.s4 = 0 ∧ w.s5 = 0 ∧ w.s6 = 0 ∧ w.s7 = 0 := by
  simp [octValid, OctWords.toList]

theorem arrValid_eq_false (a : ArrWords) : arrValid a = false ↔ ∀ i : BitVec 4, arrGet a i = 0 := by
  simp only [arrValid, Bool.not_eq_false', List.all_eq_true, Vector.mem_toList_iff, beq_iff_eq, arrGet]
  constructor
  · exact fun h i => h _ (Vector.getElem_mem _)
  · intro h x hx
    obtain ⟨i, hi, rfl⟩ := Vector.getElem_of_mem hx
    simpa [Nat.mod_eq_of_lt hi] using h (BitVec.ofNat 4 i)

/-- Reading back a written word of ARR.A, and any other (R96). -/
theorem arrGet_arrSet (a : ArrWords) (i j : BitVec 4) (w : Word) :
    arrGet (arrSet a i w) j = if j = i then w else arrGet a j := by
  unfold arrGet arrSet
  by_cases h : j = i
  · subst h; simp
  · have hne : i.toNat ≠ j.toNat := fun e => h (BitVec.eq_of_toNat_eq e.symm)
    simp [h, Vector.getElem_set_ne, hne]

/-- The advanced pointer is another index (R96: `p != q` always). -/
theorem add_one_ne_self (q : BitVec 4) : q + 1 ≠ q := by
  revert q; decide

/-! The frequency table (R117). -/

theorem mem_tableBump {t : Table} {v : Word} {e : Word × Word} (h : e ∈ tableBump t v) :
    e.1 = v ∨ e ∈ t := by
  induction t with
  | nil => simp_all [tableBump]
  | cons hd tl ih =>
    obtain ⟨k, c⟩ := hd
    unfold tableBump at h
    split at h
    · rcases List.mem_cons.mp h with rfl | h
      · exact .inl (by simp_all)
      · exact .inr (by simp [h])
    · split at h
      · rcases List.mem_cons.mp h with rfl | h
        · exact .inl rfl
        · exact .inr h
      · rcases List.mem_cons.mp h with rfl | h
        · exact .inr (by simp)
        · exact (ih h).imp_right (fun h => by simp [h])

/-- Adding a key keeps the keys strictly rising (R23). -/
theorem tableBump_sorted {t : Table} (v : Word) (h : t.Pairwise (fun e f => e.1 < f.1)) :
    (tableBump t v).Pairwise (fun e f => e.1 < f.1) := by
  induction t with
  | nil => simp [tableBump]
  | cons hd tl ih =>
    obtain ⟨k, c⟩ := hd
    obtain ⟨hk, htl⟩ := List.pairwise_cons.mp h
    unfold tableBump
    split
    · exact List.pairwise_cons.mpr ⟨hk, htl⟩
    · split
      · rename_i hvk
        refine List.pairwise_cons.mpr ⟨?_, h⟩
        intro e he
        rcases List.mem_cons.mp he with rfl | he
        · exact hvk
        · exact BitVec.lt_trans hvk (hk e he)
      · rename_i hne hvk
        refine List.pairwise_cons.mpr ⟨?_, ih htl⟩
        intro e he
        rcases mem_tableBump he with he | he
        · simp only [he]
          rw [BitVec.lt_def] at hvk ⊢
          have : v.toNat ≠ k.toNat := fun e => hne (BitVec.eq_of_toNat_eq e)
          omega
        · exact hk e he

/-- In a canonical table a key that is smaller than the first is not there. -/
theorem tableCount_eq_zero_of_lt {t : Table} {v : Word} (h : ∀ e ∈ t, v < e.1) : tableCount t v = 0 := by
  induction t with
  | nil => rfl
  | cons hd tl ih =>
    obtain ⟨k, c⟩ := hd
    have hk : v < k := h (k, c) (by simp)
    have hne : k ≠ v := fun e => absurd hk (by simp [e, BitVec.lt_irrefl])
    simp only [tableCount, hne, if_false]
    exact ih (fun e he => h e (by simp [he]))

/-- The count of the added key grows by 1, every other count stays (R117). -/
theorem tableCount_tableBump {t : Table} (h : t.Pairwise (fun e f => e.1 < f.1)) (v k : Word) :
    tableCount (tableBump t v) k = if k = v then tableCount t v + 1 else tableCount t k := by
  induction t with
  | nil =>
    by_cases hkv : k = v
    · simp [tableBump, tableCount, hkv]
    · simp [tableBump, tableCount, hkv, Ne.symm hkv]
  | cons hd tl ih =>
    obtain ⟨k', c⟩ := hd
    obtain ⟨hk, htl⟩ := List.pairwise_cons.mp h
    unfold tableBump
    split
    · rename_i hv
      subst hv
      by_cases hkv : k = v
      · simp [tableCount, hkv]
      · simp [tableCount, hkv, Ne.symm hkv]
    · rename_i hv
      split
      · rename_i hlt
        have h0 : tableCount ((k', c) :: tl) v = 0 := by
          refine tableCount_eq_zero_of_lt ?_
          intro e he
          rcases List.mem_cons.mp he with rfl | he
          · exact hlt
          · exact BitVec.lt_trans hlt (hk e he)
        by_cases hkv : k = v
        · subst hkv; simp only [if_true, h0]; simp [tableCount]
        · have hvk : v ≠ k := fun e => hkv e.symm
          simp [tableCount, hkv, hvk]
      · have hne : k' ≠ v := fun e => hv e.symm
        by_cases hk' : k' = k
        · have hkv : k ≠ v := fun e => hne (hk'.trans e)
          simp [tableCount, hk', hkv]
        · simp only [tableCount, hk', if_false, ih htl, hne]

/-- A key is in the table after an addition exactly when it was there or is the added one. -/
theorem tableHas_tableBump (t : Table) (v k : Word) : tableHas (tableBump t v) k = (v == k || tableHas t k) := by
  induction t with
  | nil => simp [tableBump, tableHas]
  | cons hd tl ih =>
    obtain ⟨k', c⟩ := hd
    simp only [tableHas] at ih
    unfold tableBump
    split
    · rename_i hv
      simp only [tableHas, List.any_cons, hv, ← Bool.or_assoc, Bool.or_self]
    · split
      · simp only [tableHas, List.any_cons]
      · simp only [tableHas, List.any_cons, ih]
        cases (k' == k) <;> cases (v == k) <;> rfl

/-- A count is at most the total of the counts. -/
theorem count_le_tableTotal {t : Table} {e : Word × Word} (h : e ∈ t) : e.2.toNat ≤ tableTotal t := by
  induction t with
  | nil => cases h
  | cons hd tl ih =>
    simp only [tableTotal, List.map_cons, List.sum_cons] at ih ⊢
    rcases List.mem_cons.mp h with rfl | h
    · omega
    · have := ih h; omega

/-- An addition adds 1 to the total, where the total leaves room for it (R24 (a), R129). -/
theorem tableTotal_tableBump {t : Table} (v : Word) (h : tableTotal t < 2 ^ 64 - 1) :
    tableTotal (tableBump t v) = tableTotal t + 1 := by
  induction t with
  | nil => rfl
  | cons hd tl ih =>
    obtain ⟨k, c⟩ := hd
    simp only [tableTotal, List.map_cons, List.sum_cons] at ih h ⊢
    unfold tableBump
    split
    · have hc : (c + 1).toNat = c.toNat + 1 := by
        rw [BitVec.toNat_add]
        exact Nat.mod_eq_of_lt (by simp; omega)
      simp only [List.map_cons, List.sum_cons, hc]
      omega
    · split
      · simp only [List.map_cons, List.sum_cons, show (1 : Word).toNat = 1 from rfl]
        omega
      · simp only [List.map_cons, List.sum_cons, ih (by omega)]
        omega

/-- An addition leaves no zero count, where the total leaves room for it (R24 (b)). -/
theorem tableBump_ne_zero {t : Table} (v : Word) (h : tableTotal t < 2 ^ 64 - 1) (hz : ∀ e ∈ t, e.2 ≠ 0) :
    ∀ e ∈ tableBump t v, e.2 ≠ 0 := by
  induction t with
  | nil => simp [tableBump]
  | cons hd tl ih =>
    obtain ⟨k, c⟩ := hd
    have hc : c.toNat ≤ tableTotal ((k, c) :: tl) := count_le_tableTotal (e := (k, c)) (by simp)
    have htl : tableTotal tl < 2 ^ 64 - 1 := by
      simp only [tableTotal, List.map_cons, List.sum_cons] at h ⊢
      omega
    unfold tableBump
    split
    · intro e he
      rcases List.mem_cons.mp he with rfl | he
      · intro h0
        have h0 := congrArg BitVec.toNat h0
        rw [BitVec.toNat_add, show (1 : Word).toNat = 1 from rfl, Nat.mod_eq_of_lt (by omega)] at h0
        simp at h0
      · exact hz e (by simp [he])
    · split
      · intro e he
        rcases List.mem_cons.mp he with rfl | he
        · exact fun h => absurd h (show (1 : Word) ≠ 0 by decide)
        · exact hz e he
      · intro e he
        rcases List.mem_cons.mp he with rfl | he
        · exact hz (k, c) (by simp)
        · exact ih htl (fun e he => hz e (by simp [he])) e he

/-- An addition keeps the canonical form of the table (R23, R24). -/
theorem tableBump_wf {t : Table} (v : Word) (h : tableTotal t < 2 ^ 64 - 1) (hw : Table.wf t) : Table.wf (tableBump t v) :=
  ⟨tableBump_sorted v hw.1, tableBump_ne_zero v h hw.2⟩

/-- The number of keys grows by one for a new key only (R117). -/
theorem length_tableBump {t : Table} (v : Word) (h : t.Pairwise (fun e f => e.1 < f.1)) :
    (tableBump t v).length = if tableHas t v then t.length else t.length + 1 := by
  induction t with
  | nil => rfl
  | cons hd tl ih =>
    obtain ⟨k, c⟩ := hd
    obtain ⟨hk, htl⟩ := List.pairwise_cons.mp h
    unfold tableBump
    split
    · rename_i hv
      simp [tableHas, hv]
    · rename_i hv
      have hne : k ≠ v := fun e => hv e.symm
      split
      · rename_i hlt
        have hno : tableHas tl v = false := by
          simp only [tableHas, List.any_eq_false, beq_iff_eq]
          intro e he h'
          exact absurd (BitVec.lt_trans hlt (hk e he)) (by simp [h', BitVec.lt_irrefl])
        simp only [tableHas] at hno
        simp [tableHas, hne, hno]
      · have hhas : tableHas ((k, c) :: tl) v = tableHas tl v := by simp [tableHas, hne]
        rw [List.length_cons, ih htl, hhas, List.length_cons]
        cases tableHas tl v <;> rfl

end Sys2Proof.Machine
end

