-- ==== Sys2Proof/Laws/Sm.lean ====
section
/-! SUPPORT. The expander's states and words, one equation per case (spec/41_splitmix64.md R58, spec/42_construction.md
R67). Rewrite with these instead of
`rfl`: the kernel, asked to unify a seeded word with a register, unfolds it through its 64-bit literals and runs away
(Laws/Next.lean says how to keep it from asking). -/

namespace Sys2Proof.Machine

theorem smStep_fst (p : Params) (x : Word) : (smStep p x).1 = smAdvance x := rfl
theorem smStep_snd (p : Params) (x : Word) : (smStep p x).2 = smMix p (smAdvance x) := rfl
theorem smAdvance_eq (x : Word) : smAdvance x = x + smGamma := rfl

@[simp] theorem seedAdvance_zero (x : Word) : seedAdvance x 0 = x := rfl
theorem seedAdvance_succ (x : Word) (n : Nat) : seedAdvance x (n + 1) = smAdvance (seedAdvance x n) := rfl
theorem seedWord_eq (p : Params) (x : Word) (i : Nat) : seedWord p x i = smMix p (smAdvance (seedAdvance x i)) := rfl

/-- `n` steps add `n` times the constant (R62 (a)). -/
theorem seedAdvance_eq (x : Word) (n : Nat) : seedAdvance x n = x + BitVec.ofNat 64 n * smGamma := by
  induction n with
  | zero => rw [seedAdvance_zero, BitVec.zero_mul, BitVec.add_zero]
  | succ n ih =>
    rw [seedAdvance_succ, ih, smAdvance_eq, BitVec.ofNat_add, BitVec.add_mul, BitVec.one_mul, BitVec.add_assoc]

/-- Drawing on from the state after `m` words (R69). -/
theorem seedAdvance_add (x : Word) (m n : Nat) : seedAdvance (seedAdvance x m) n = seedAdvance x (m + n) := by
  induction n with
  | zero => rfl
  | succ n ih => rw [seedAdvance_succ, ih, ← Nat.add_assoc, seedAdvance_succ]

end Sys2Proof.Machine
end

