-- ==== Sys2Proof/Laws/Exec.lean ====
section
/-! SUPPORT. What a command can do, said once: it raises `NOT_CONSTRUCTED` on an unconstructed unit, or another cause
where R142 allows one, or answers OK within its own unit (spec/60_exceptions.md R131, R133, R142). Cite
`exec_outcome` instead of unfolding the thirty-five meanings. -/

namespace Sys2Proof.Laws

open Sys2Proof.Machine

/-- `o` answers OK to the command `i` in state `s`, and what stands outside the command's unit is kept. -/
def Answers (i : Instr) (s : State) (o : Result) : Prop :=
  ∃ t w, o = .next (t.answer w) ∧ sameOutside (unitOf i) s t ∧ t.fault = s.fault ∧ t.port = s.port ∧
    t.params = s.params ∧ (isHost i = false → t.hrand = s.hrand)

/-- `o` is a fault entry of `i` with a cause other than `NOT_CONSTRUCTED` and `ILLEGAL_COMMAND`. -/
def Faults (i : Instr) (s : State) (o : Result) : Prop :=
  ∃ c ∈ [Cause.invalidState, .invalidPointer, .invalidDomain, .domainExceeded, .counterOverflow, .tableFull],
    o = .next (s.raise c i.opcode.word)

/-- What the command `i` does in state `s`. -/
def Outcome (i : Instr) (s : State) (o : Result) : Prop :=
  (validBit? s i = some false ∧ o = .next (s.raise .notConstructed i.opcode.word)) ∨
    (validBit? s i ≠ some false ∧ (Answers i s o ∨ (mayFaultConstructed i = true ∧ Faults i s o)))

/-- Behind the valid-bit check: enough to look at a constructed unit. -/
theorem outcome_whenConstructed {i : Instr} {s : State} {v : Bool} {o : Opcode} {rest : Result}
    (hv : validBit? s i = some v) (ho : i.opcode = o)
    (h : Answers i s rest ∨ (mayFaultConstructed i = true ∧ Faults i s rest)) :
    Outcome i s (s.whenConstructed v o rest) := by
  cases v
  · exact .inl ⟨hv, by rw [ho, whenConstructed_false]⟩
  · rw [whenConstructed_true]
    exact .inr ⟨by rw [hv]; decide, h⟩

/-- A command without such a check. -/
theorem outcome_of_none {i : Instr} {s : State} {o : Result} (hv : validBit? s i = none)
    (h : Answers i s o ∨ (mayFaultConstructed i = true ∧ Faults i s o)) : Outcome i s o :=
  .inr ⟨by rw [hv]; decide, h⟩

theorem answers_same {i : Instr} (s : State) (w : Option Word) : Answers i s (.next (s.answer w)) :=
  ⟨s, w, rfl, ⟨fun _ => rfl, fun _ => rfl, fun _ => rfl, fun _ => rfl, fun _ => rfl, fun _ => rfl⟩, rfl, rfl, rfl,
    fun _ => rfl⟩

theorem answers_draws {i : Instr} (s : State) (n : Nat) (w : Option Word) : Answers i s (.next ((s.setDraws n).answer w)) :=
  ⟨s.setDraws n, w, rfl, ⟨fun _ => rfl, fun _ => rfl, fun _ => rfl, fun _ => rfl, fun _ => rfl, fun _ => rfl⟩, rfl, rfl,
    rfl, fun _ => rfl⟩

theorem answers_sm {i : Instr} (h : unitOf i = .sm) (s : State) (u : SmUnit) (w : Option Word) :
    Answers i s (.next ((s.setSm u).answer w)) :=
  ⟨s.setSm u, w, rfl, by rw [h]; exact ⟨fun h => absurd rfl h, fun _ => rfl, fun _ => rfl, fun _ => rfl, fun _ => rfl,
    fun _ => rfl⟩, rfl, rfl, rfl, fun _ => rfl⟩

theorem answers_pair {i : Instr} (h : unitOf i = .pair) (s : State) (b : PairBank) (w : Option Word) :
    Answers i s (.next ((s.setPair b).answer w)) :=
  ⟨s.setPair b, w, rfl, by rw [h]; exact ⟨fun _ => rfl, fun h => absurd rfl h, fun _ => rfl, fun _ => rfl, fun _ => rfl,
    fun _ => rfl⟩, rfl, rfl, rfl, fun _ => rfl⟩

theorem answers_arr {i : Instr} (h : unitOf i = .arr) (s : State) (b : ArrBank) (w : Option Word) :
    Answers i s (.next ((s.setArr b).answer w)) :=
  ⟨s.setArr b, w, rfl, by rw [h]; exact ⟨fun _ => rfl, fun _ => rfl, fun h => absurd rfl h, fun _ => rfl, fun _ => rfl,
    fun _ => rfl⟩, rfl, rfl, rfl, fun _ => rfl⟩

theorem answers_quad {i : Instr} (h : unitOf i = .quad) (s : State) (b : QuadBank) (w : Option Word) :
    Answers i s (.next ((s.setQuad b).answer w)) :=
  ⟨s.setQuad b, w, rfl, by rw [h]; exact ⟨fun _ => rfl, fun _ => rfl, fun _ => rfl, fun h => absurd rfl h, fun _ => rfl,
    fun _ => rfl⟩, rfl, rfl, rfl, fun _ => rfl⟩

theorem answers_oct {i : Instr} (h : unitOf i = .oct) (s : State) (b : OctBank) (w : Option Word) :
    Answers i s (.next ((s.setOct b).answer w)) :=
  ⟨s.setOct b, w, rfl, by rw [h]; exact ⟨fun _ => rfl, fun _ => rfl, fun _ => rfl, fun _ => rfl, fun h => absurd rfl h,
    fun _ => rfl⟩, rfl, rfl, rfl, fun _ => rfl⟩

theorem answers_ent {i : Instr} (h : unitOf i = .ent) (s : State) (u : EntUnit) (w : Option Word) :
    Answers i s (.next ((s.setEnt u).answer w)) :=
  ⟨s.setEnt u, w, rfl, by rw [h]; exact ⟨fun _ => rfl, fun _ => rfl, fun _ => rfl, fun _ => rfl, fun _ => rfl,
    fun h => absurd rfl h⟩, rfl, rfl, rfl, fun _ => rfl⟩

/-- What follows a word from `HRAND` answers as it would in the state before it. -/
theorem answers_takeHrand {i : Instr} (h : isHost i = true) (s : State) {o : Result} (ha : Answers i s.takeHrand.2 o) :
    Answers i s o := by
  obtain ⟨ws, n, hf⟩ := takeHrand_frame s
  obtain ⟨t, w, ho, hs, hfa, hp, hpa, -⟩ := ha
  rw [hf] at hs hfa hp hpa
  exact ⟨t, w, ho, hs, hfa, hp, hpa, fun h' => absurd h (by rw [h']; decide)⟩

/-! The families. -/

theorem rotl_outcome (x k : Word) (s : State) : Outcome (.rotl x k) s (execRotl x k s) := by
  unfold execRotl
  split
  · exact outcome_of_none rfl (.inl (answers_same s _))
  · exact outcome_of_none rfl (.inl (answers_draws s _ _))

theorem pairInit_outcome (w : PairWords) (s : State) : Outcome (.pairInit w) s (execPairInit w s) := by
  unfold execPairInit
  split
  · exact outcome_of_none rfl (.inl (answers_pair rfl s _ _))
  · exact outcome_of_none rfl (.inr ⟨rfl, .invalidState, by decide, rfl⟩)

theorem arrInit_outcome (p : Word) (a : ArrWords) (s : State) : Outcome (.arrInit p a) s (execArrInit p a s) := by
  unfold execArrInit
  split
  · exact outcome_of_none rfl (.inr ⟨rfl, .invalidPointer, by decide, rfl⟩)
  · split
    · exact outcome_of_none rfl (.inl (answers_arr rfl s _ _))
    · exact outcome_of_none rfl (.inr ⟨rfl, .invalidState, by decide, rfl⟩)

theorem quadInit_outcome (w : QuadWords) (s : State) : Outcome (.quadInit w) s (execQuadInit w s) := by
  unfold execQuadInit
  split
  · exact outcome_of_none rfl (.inl (answers_quad rfl s _ _))
  · exact outcome_of_none rfl (.inr ⟨rfl, .invalidState, by decide, rfl⟩)

theorem octInit_outcome (w : OctWords) (s : State) : Outcome (.octInit w) s (execOctInit w s) := by
  unfold execOctInit
  split
  · exact outcome_of_none rfl (.inl (answers_oct rfl s _ _))
  · exact outcome_of_none rfl (.inr ⟨rfl, .invalidState, by decide, rfl⟩)

theorem entInit_outcome (d : Word) (s : State) : Outcome (.entInit d) s (execEntInit d s) := by
  unfold execEntInit
  split
  · exact outcome_of_none rfl (.inr ⟨rfl, .invalidDomain, by decide, rfl⟩)
  · exact outcome_of_none rfl (.inl (answers_ent rfl s _ _))

theorem entAdd_outcome (v : Word) (s : State) : Outcome (.entAdd v) s (execEntAdd v s) := by
  refine outcome_whenConstructed rfl rfl ?_
  split
  · exact .inr ⟨rfl, .tableFull, by decide, rfl⟩
  · split
    · exact .inr ⟨rfl, .counterOverflow, by decide, rfl⟩
    · exact .inl (answers_ent rfl s _ _)

theorem entScore_outcome {i : Instr} (hv : ∀ s, validBit? s i = some s.ent.v) (hm : mayFaultConstructed i = true)
    (f : BitVec 63 → Table → Word) (s : State) : Outcome i s (entScore i.opcode f s) := by
  refine outcome_whenConstructed (hv s) rfl ?_
  split
  · exact .inr ⟨hm, .domainExceeded, by decide, rfl⟩
  · split
    · exact .inl (answers_draws s _ _)
    · exact .inl (answers_same s _)

/-- Every command, in every state. -/
theorem exec_outcome (i : Instr) (s : State) : Outcome i s (exec i s) := by
  cases i with
  | rotl x k => exact rotl_outcome x k s
  | smInit x => exact outcome_of_none rfl (.inl (answers_sm rfl s _ _))
  | smNext => exact outcome_whenConstructed rfl rfl (.inl (answers_sm rfl s _ _))
  | smEq x => exact outcome_whenConstructed rfl rfl (.inl (answers_same s _))
  | pairInit w => exact pairInit_outcome w s
  | pairSeed x => exact outcome_of_none rfl (.inl (answers_pair rfl s _ _))
  | pairHost => exact outcome_of_none rfl (.inl (answers_takeHrand rfl s (answers_pair rfl _ _ _)))
  | pairNextP => exact outcome_whenConstructed rfl rfl (.inl (answers_pair rfl s _ _))
  | pairNextPP => exact outcome_whenConstructed rfl rfl (.inl (answers_pair rfl s _ _))
  | pairNextSS => exact outcome_whenConstructed rfl rfl (.inl (answers_pair rfl s _ _))
  | pairEq w => exact outcome_whenConstructed rfl rfl (.inl (answers_same s _))
  | arrInit p a => exact arrInit_outcome p a s
  | arrSeed x => exact outcome_of_none rfl (.inl (answers_arr rfl s _ _))
  | arrHost => exact outcome_of_none rfl (.inl (answers_takeHrand rfl s (answers_arr rfl _ _ _)))
  | arrNextSS => exact outcome_whenConstructed rfl rfl (.inl (answers_arr rfl s _ _))
  | arrNextS => exact outcome_whenConstructed rfl rfl (.inl (answers_arr rfl s _ _))
  | arrEq a => exact outcome_whenConstructed rfl rfl (.inl (answers_same s _))
  | quadInit w => exact quadInit_outcome w s
  | quadSeed x => exact outcome_of_none rfl (.inl (answers_quad rfl s _ _))
  | quadHost => exact outcome_of_none rfl (.inl (answers_takeHrand rfl s (answers_quad rfl _ _ _)))
  | quadNextP => exact outcome_whenConstructed rfl rfl (.inl (answers_quad rfl s _ _))
  | quadNextPP => exact outcome_whenConstructed rfl rfl (.inl (answers_quad rfl s _ _))
  | quadNextSS => exact outcome_whenConstructed rfl rfl (.inl (answers_quad rfl s _ _))
  | quadEq w => exact outcome_whenConstructed rfl rfl (.inl (answers_same s _))
  | octInit w => exact octInit_outcome w s
  | octSeed x => exact outcome_of_none rfl (.inl (answers_oct rfl s _ _))
  | octHost => exact outcome_of_none rfl (.inl (answers_takeHrand rfl s (answers_oct rfl _ _ _)))
  | octNextP => exact outcome_whenConstructed rfl rfl (.inl (answers_oct rfl s _ _))
  | octNextPP => exact outcome_whenConstructed rfl rfl (.inl (answers_oct rfl s _ _))
  | octNextSS => exact outcome_whenConstructed rfl rfl (.inl (answers_oct rfl s _ _))
  | octEq w => exact outcome_whenConstructed rfl rfl (.inl (answers_same s _))
  | entInit d => exact entInit_outcome d s
  | entAdd v => exact entAdd_outcome v s
  | entEntropy => exact entScore_outcome (i := .entEntropy) (fun _ => rfl) rfl _ s
  | entEfficiency => exact entScore_outcome (i := .entEfficiency) (fun _ => rfl) rfl _ s

end Sys2Proof.Laws
end

