-- ==== Sys2Proof/Laws/Next.lean ====
section
/-! SUPPORT. The next states of the commands as record updates, proved once over abstract operands. Rewrite with these:
where a bank's words are written out, `rfl` between such states makes the kernel compare the update with the state itself,
and so a computed word with a register, which does not end. -/

namespace Sys2Proof.Machine

theorem answer_eq (s : State) (w : Option Word) : s.answer w = { s with response := okResponse w } := by
  cases s; rfl

theorem raise_eq (s : State) (c : Cause) (cw : CmdWord) : s.raise c cw = faultEntry s c.code cw := by
  cases s; rfl

theorem answerHalted_eq (s : State) : s.answerHalted = { s with response := haltedResponse s.fault.cause } := by
  cases s; rfl

theorem answerAny64_eq (s : State) :
    s.answerAny64 = { s with draws := s.draws + 1, response := okResponse (some (Config.any64 s.draws)) } := by
  cases s; rfl

theorem answerAnyF64_eq (s : State) :
    s.answerAnyF64 = { s with draws := s.draws + 1, response := okResponse (some (Config.anyF64 s.draws)) } := by
  cases s; rfl

theorem setPort_eq (s : State) (es : List HostEvent) : s.setPort es = { s with port := es } := by
  cases s; rfl

theorem answer_setSm (s : State) (u : SmUnit) (w : Option Word) :
    (s.setSm u).answer w = { s with sm := u, response := okResponse w } := by
  cases s; rfl

theorem answer_setPair (s : State) (b : PairBank) (w : Option Word) :
    (s.setPair b).answer w = { s with pair := b, response := okResponse w } := by
  cases s; rfl

theorem answer_setArr (s : State) (b : ArrBank) (w : Option Word) :
    (s.setArr b).answer w = { s with arr := b, response := okResponse w } := by
  cases s; rfl

theorem answer_setQuad (s : State) (b : QuadBank) (w : Option Word) :
    (s.setQuad b).answer w = { s with quad := b, response := okResponse w } := by
  cases s; rfl

theorem answer_setOct (s : State) (b : OctBank) (w : Option Word) :
    (s.setOct b).answer w = { s with oct := b, response := okResponse w } := by
  cases s; rfl

theorem answer_setEnt (s : State) (u : EntUnit) (w : Option Word) :
    (s.setEnt u).answer w = { s with ent := u, response := okResponse w } := by
  cases s; rfl

theorem answer_setPair_setHrand (s : State) (ws : List Word) (b : PairBank) (w : Option Word) :
    ((s.setHrand ws).setPair b).answer w = { s with hrand := ws, pair := b, response := okResponse w } := by
  cases s; rfl

theorem answer_setPair_setDraws (s : State) (n : Nat) (b : PairBank) (w : Option Word) :
    ((s.setDraws n).setPair b).answer w = { s with draws := n, pair := b, response := okResponse w } := by
  cases s; rfl

theorem answer_setArr_setHrand (s : State) (ws : List Word) (b : ArrBank) (w : Option Word) :
    ((s.setHrand ws).setArr b).answer w = { s with hrand := ws, arr := b, response := okResponse w } := by
  cases s; rfl

theorem answer_setArr_setDraws (s : State) (n : Nat) (b : ArrBank) (w : Option Word) :
    ((s.setDraws n).setArr b).answer w = { s with draws := n, arr := b, response := okResponse w } := by
  cases s; rfl

theorem answer_setQuad_setHrand (s : State) (ws : List Word) (b : QuadBank) (w : Option Word) :
    ((s.setHrand ws).setQuad b).answer w = { s with hrand := ws, quad := b, response := okResponse w } := by
  cases s; rfl

theorem answer_setQuad_setDraws (s : State) (n : Nat) (b : QuadBank) (w : Option Word) :
    ((s.setDraws n).setQuad b).answer w = { s with draws := n, quad := b, response := okResponse w } := by
  cases s; rfl

theorem answer_setOct_setHrand (s : State) (ws : List Word) (b : OctBank) (w : Option Word) :
    ((s.setHrand ws).setOct b).answer w = { s with hrand := ws, oct := b, response := okResponse w } := by
  cases s; rfl

theorem answer_setOct_setDraws (s : State) (n : Nat) (b : OctBank) (w : Option Word) :
    ((s.setDraws n).setOct b).answer w = { s with draws := n, oct := b, response := okResponse w } := by
  cases s; rfl

end Sys2Proof.Machine
end

