-- ==== Sys2Proof/Laws/PerInstr.lean ====
section
/-! SUPPORT. Statements made per instruction: the request of every instruction passes the field checks of
spec/30_encoding.md R41 to R46 (R49, R50). -/

namespace Sys2Proof.Laws.EncodeWellFormed

/-- The request of `i` is well formed: its fields are legal together and it carries as many operands as they ask for. -/
def Statement (i : Instr) : Prop := (encode i).wellFormed = true

theorem rotl (x : Word) (k : Word) : Statement (.rotl x k) := wellFormed_of_arity _ _ rfl
theorem smInit (state : Word) : Statement (.smInit state) := wellFormed_of_arity _ _ rfl
theorem smNext : Statement (.smNext) := wellFormed_of_arity _ _ rfl
theorem smEq (state : Word) : Statement (.smEq state) := wellFormed_of_arity _ _ rfl
theorem pairInit (w : PairWords) : Statement (.pairInit w) := wellFormed_of_arity _ _ rfl
theorem pairSeed (seed : Word) : Statement (.pairSeed seed) := wellFormed_of_arity _ _ rfl
theorem pairHost : Statement (.pairHost) := wellFormed_of_arity _ _ rfl
theorem pairNextP : Statement (.pairNextP) := wellFormed_of_arity _ _ rfl
theorem pairNextPP : Statement (.pairNextPP) := wellFormed_of_arity _ _ rfl
theorem pairNextSS : Statement (.pairNextSS) := wellFormed_of_arity _ _ rfl
theorem pairEq (w : PairWords) : Statement (.pairEq w) := wellFormed_of_arity _ _ rfl
theorem arrInit (p : Word) (a : ArrWords) : Statement (.arrInit p a) := wellFormed_of_arity _ _ (by simp [Instr.operands, Instr.opcode, Opcode.arity])
theorem arrSeed (seed : Word) : Statement (.arrSeed seed) := wellFormed_of_arity _ _ rfl
theorem arrHost : Statement (.arrHost) := wellFormed_of_arity _ _ rfl
theorem arrNextSS : Statement (.arrNextSS) := wellFormed_of_arity _ _ rfl
theorem arrNextS : Statement (.arrNextS) := wellFormed_of_arity _ _ rfl
theorem arrEq (a : ArrWords) : Statement (.arrEq a) := wellFormed_of_arity _ _ (by simp [Instr.operands, Instr.opcode, Opcode.arity])
theorem quadInit (w : QuadWords) : Statement (.quadInit w) := wellFormed_of_arity _ _ rfl
theorem quadSeed (seed : Word) : Statement (.quadSeed seed) := wellFormed_of_arity _ _ rfl
theorem quadHost : Statement (.quadHost) := wellFormed_of_arity _ _ rfl
theorem quadNextP : Statement (.quadNextP) := wellFormed_of_arity _ _ rfl
theorem quadNextPP : Statement (.quadNextPP) := wellFormed_of_arity _ _ rfl
theorem quadNextSS : Statement (.quadNextSS) := wellFormed_of_arity _ _ rfl
theorem quadEq (w : QuadWords) : Statement (.quadEq w) := wellFormed_of_arity _ _ rfl
theorem octInit (w : OctWords) : Statement (.octInit w) := wellFormed_of_arity _ _ rfl
theorem octSeed (seed : Word) : Statement (.octSeed seed) := wellFormed_of_arity _ _ rfl
theorem octHost : Statement (.octHost) := wellFormed_of_arity _ _ rfl
theorem octNextP : Statement (.octNextP) := wellFormed_of_arity _ _ rfl
theorem octNextPP : Statement (.octNextPP) := wellFormed_of_arity _ _ rfl
theorem octNextSS : Statement (.octNextSS) := wellFormed_of_arity _ _ rfl
theorem octEq (w : OctWords) : Statement (.octEq w) := wellFormed_of_arity _ _ rfl
theorem entInit (domain : Word) : Statement (.entInit domain) := wellFormed_of_arity _ _ rfl
theorem entAdd (v : Word) : Statement (.entAdd v) := wellFormed_of_arity _ _ rfl
theorem entEntropy : Statement (.entEntropy) := wellFormed_of_arity _ _ rfl
theorem entEfficiency : Statement (.entEfficiency) := wellFormed_of_arity _ _ rfl

end Sys2Proof.Laws.EncodeWellFormed
end

