-- ==== Sys2Proof/Laws/Seed.lean ====
section
/-! SUPPORT. The words the seeded constructors lay into a bank, as the expander yields them (spec/42_construction.md R67,
R68), and the two ways to take a word from HRAND (spec/10_state.md R25). -/

namespace Sys2Proof.Machine

/-- The `i`-th drawn word is the expander's `i`-th word. -/
theorem seedWord_eq_expanderWord (p : Params) (x : Word) (i : Nat) : seedWord p x i = expanderWord p x i := by
  rw [seedWord, expanderWord, seedAdvance_eq]

/-- Drawing after the first word. -/
theorem expanderWord_smAdvance (p : Params) (x : Word) (i : Nat) :
    expanderWord p (smAdvance x) i = expanderWord p x (i + 1) := by
  rw [← seedWord_eq_expanderWord, ← seedWord_eq_expanderWord, seedWord, seedWord, Nat.add_comm i 1,
    ← seedAdvance_add, seedAdvance_succ, seedAdvance_zero]

/-- The first word is the output of the first step. -/
theorem smStep_snd_eq_expanderWord (p : Params) (x : Word) : (smStep p x).2 = expanderWord p x 0 := by
  rw [← seedWord_eq_expanderWord, seedWord, seedAdvance_zero]

/-- Slot `i` of a seeded array is the `i`-th word. -/
theorem arrGet_arrOfSeed (p : Params) (x : Word) (i : BitVec 4) : arrGet (arrOfSeed p x) i = seedWord p x i.toNat := by
  have h : i = 0#4 ∨ i = 1#4 ∨ i = 2#4 ∨ i = 3#4 ∨ i = 4#4 ∨ i = 5#4 ∨ i = 6#4 ∨ i = 7#4 ∨ i = 8#4 ∨ i = 9#4 ∨
      i = 10#4 ∨ i = 11#4 ∨ i = 12#4 ∨ i = 13#4 ∨ i = 14#4 ∨ i = 15#4 := by
    revert i; decide
  rcases h with rfl | rfl | rfl | rfl | rfl | rfl | rfl | rfl | rfl | rfl | rfl | rfl | rfl | rfl | rfl | rfl <;> rfl

theorem takeHrand_cons {s : State} {w : Word} {ws : List Word} (h : s.hrand = w :: ws) :
    s.takeHrand = (w, s.setHrand ws) := by
  unfold State.takeHrand; rw [h]

theorem takeHrand_nil {s : State} (h : s.hrand = []) :
    s.takeHrand = (Config.hrandWord s.draws, s.setDraws (s.draws + 1)) := by
  unfold State.takeHrand; rw [h]

end Sys2Proof.Machine
end

