-- ==== Sys2Proof/Tests/Slice0.lean ====
section
/-! SUPPORT. Tests against values of spec/95_test_vectors.md and the worked examples of the rules; each runs at most one
step on a small state. -/

namespace Sys2Proof.Tests

open Sys2Proof.Machine

/-- The next state of an outcome, `d` where there is none. -/
def nextOr (d : State) : Result → State
  | .next t => t
  | _ => d

/-- The state `exec i` leaves from `s`. -/
def after (i : Instr) (s : State) : State := nextOr State.reset (exec i s)

/-- The response `exec i` gives from `s`. -/
def answerOf (i : Instr) (s : State) : Option Response := (after i s).response

def okWord (w : Word) : Option Response := some { status := .ok, cause := 0, result := some w }
def okNone : Option Response := some { status := .ok, cause := 0, result := none }
def faulted (c : BitVec 8) : Option Response := some { status := .fault, cause := c, result := none }
def haltedBy (c : BitVec 8) : Option Response := some { status := .halted, cause := c, result := none }

def withSm (x : Word) : State := State.reset.setSm { x := x, v := true }
def withPair (w : PairWords) : State := State.reset.setPair { s := w, v := true }
def withArr (p : BitVec 4) (a : ArrWords) : State := State.reset.setArr { a := a, p := p, v := true }
def withQuad (w : QuadWords) : State := State.reset.setQuad { s := w, v := true }
def withOct (w : OctWords) : State := State.reset.setOct { s := w, v := true }
def withEnt (d : BitVec 63) (t : Table) (n : Word) : State :=
  State.reset.setEnt { d := d, t := t, n := n, v := true }

def a16 : ArrWords := #v[1, 2, 3, 4, 5, 6, 7, 8, 9, 10, 11, 12, 13, 14, 15, 16]
def z16 : ArrWords := #v[0, 0, 0, 0, 0, 0, 0, 0, 0, 0, 0, 0, 0, 0, 0, 0]
def q1234 : QuadWords := { s0 := 1, s1 := 2, s2 := 3, s3 := 4 }
def o18 : OctWords := { s0 := 1, s1 := 2, s2 := 3, s3 := 4, s4 := 5, s5 := 6, s6 := 7, s7 := 8 }

/-! WellFormed: an ill-formed request for each check (V10). -/

theorem test_wf_accepts : (Request.mk 0x03030100 []).wellFormed = true := by decide
theorem test_wf_unit_zero : (Request.mk 0x00000000 []).wellFormed = false := by decide
theorem test_wf_unit_reserved : (Request.mk 0x08000000 []).wellFormed = false := by decide
theorem test_wf_fn : (Request.mk 0x02010000 [0]).wellFormed = false := by decide
theorem test_wf_scr : (Request.mk 0x05030400 []).wellFormed = false := by decide
theorem test_wf_scr_outside_next : (Request.mk 0x03000100 [0, 0]).wellFormed = false := by decide
theorem test_wf_arr_has_no_plus : (Request.mk 0x04030000 []).wellFormed = false := by decide
theorem test_wf_zero_field : (Request.mk 0x01000001 [0, 0]).wellFormed = false := by decide
theorem test_wf_operand_count : (Request.mk 0x03000000 [1]).wellFormed = false := by decide

/-! Decode: words assembled field by field, `UNIT ++ FN ++ SCR ++ ZERO` (R41, V10). -/

theorem test_decode_rotl : (decode ⟨0x01#8 ++ 0x00#8 ++ 0x00#8 ++ 0x00#8, [5, 6]⟩).toOption = some (.rotl 5 6) := by decide
theorem test_decode_smInit : (decode ⟨0x02#8 ++ 0x00#8 ++ 0x00#8 ++ 0x00#8, [5]⟩).toOption = some (.smInit 5) := by decide
theorem test_decode_smNext : (decode ⟨0x02#8 ++ 0x03#8 ++ 0x00#8 ++ 0x00#8, []⟩).toOption = some .smNext := by decide
theorem test_decode_smEq : (decode ⟨0x02#8 ++ 0x04#8 ++ 0x00#8 ++ 0x00#8, [5]⟩).toOption = some (.smEq 5) := by decide
theorem test_decode_pairInit : (decode ⟨0x03#8 ++ 0x00#8 ++ 0x00#8 ++ 0x00#8, [1, 2]⟩).toOption = some (.pairInit ⟨1, 2⟩) := by decide
theorem test_decode_pairSeed : (decode ⟨0x03#8 ++ 0x01#8 ++ 0x00#8 ++ 0x00#8, [7]⟩).toOption = some (.pairSeed 7) := by decide
theorem test_decode_pairHost : (decode ⟨0x03#8 ++ 0x02#8 ++ 0x00#8 ++ 0x00#8, []⟩).toOption = some .pairHost := by decide
theorem test_decode_pairNextP : (decode ⟨0x03#8 ++ 0x03#8 ++ 0x00#8 ++ 0x00#8, []⟩).toOption = some .pairNextP := by decide
theorem test_decode_pairNextPP : (decode ⟨0x03#8 ++ 0x03#8 ++ 0x01#8 ++ 0x00#8, []⟩).toOption = some .pairNextPP := by decide
theorem test_decode_pairNextSS : (decode ⟨0x03#8 ++ 0x03#8 ++ 0x02#8 ++ 0x00#8, []⟩).toOption = some .pairNextSS := by decide
theorem test_decode_pairEq : (decode ⟨0x03#8 ++ 0x04#8 ++ 0x00#8 ++ 0x00#8, [1, 2]⟩).toOption = some (.pairEq ⟨1, 2⟩) := by decide
theorem test_decode_arrInit :
    (decode ⟨0x04#8 ++ 0x00#8 ++ 0x00#8 ++ 0x00#8, [15, 1, 2, 3, 4, 5, 6, 7, 8, 9, 10, 11, 12, 13, 14, 15, 16]⟩).toOption =
      some (.arrInit 15 a16) := by decide
theorem test_decode_arrSeed : (decode ⟨0x04#8 ++ 0x01#8 ++ 0x00#8 ++ 0x00#8, [7]⟩).toOption = some (.arrSeed 7) := by decide
theorem test_decode_arrHost : (decode ⟨0x04#8 ++ 0x02#8 ++ 0x00#8 ++ 0x00#8, []⟩).toOption = some .arrHost := by decide
theorem test_decode_arrNextSS : (decode ⟨0x04#8 ++ 0x03#8 ++ 0x02#8 ++ 0x00#8, []⟩).toOption = some .arrNextSS := by decide
theorem test_decode_arrNextS : (decode ⟨0x04#8 ++ 0x03#8 ++ 0x03#8 ++ 0x00#8, []⟩).toOption = some .arrNextS := by decide
theorem test_decode_arrEq :
    (decode ⟨0x04#8 ++ 0x04#8 ++ 0x00#8 ++ 0x00#8, [1, 2, 3, 4, 5, 6, 7, 8, 9, 10, 11, 12, 13, 14, 15, 16]⟩).toOption =
      some (.arrEq a16) := by decide
theorem test_decode_quadInit : (decode ⟨0x05#8 ++ 0x00#8 ++ 0x00#8 ++ 0x00#8, [1, 2, 3, 4]⟩).toOption = some (.quadInit q1234) := by decide
theorem test_decode_quadSeed : (decode ⟨0x05#8 ++ 0x01#8 ++ 0x00#8 ++ 0x00#8, [7]⟩).toOption = some (.quadSeed 7) := by decide
theorem test_decode_quadHost : (decode ⟨0x05#8 ++ 0x02#8 ++ 0x00#8 ++ 0x00#8, []⟩).toOption = some .quadHost := by decide
theorem test_decode_quadNextP : (decode ⟨0x05#8 ++ 0x03#8 ++ 0x00#8 ++ 0x00#8, []⟩).toOption = some .quadNextP := by decide
theorem test_decode_quadNextPP : (decode ⟨0x05#8 ++ 0x03#8 ++ 0x01#8 ++ 0x00#8, []⟩).toOption = some .quadNextPP := by decide
theorem test_decode_quadNextSS : (decode ⟨0x05#8 ++ 0x03#8 ++ 0x02#8 ++ 0x00#8, []⟩).toOption = some .quadNextSS := by decide
theorem test_decode_quadEq : (decode ⟨0x05#8 ++ 0x04#8 ++ 0x00#8 ++ 0x00#8, [1, 2, 3, 4]⟩).toOption = some (.quadEq q1234) := by decide
theorem test_decode_octInit : (decode ⟨0x06#8 ++ 0x00#8 ++ 0x00#8 ++ 0x00#8, [1, 2, 3, 4, 5, 6, 7, 8]⟩).toOption = some (.octInit o18) := by decide
theorem test_decode_octSeed : (decode ⟨0x06#8 ++ 0x01#8 ++ 0x00#8 ++ 0x00#8, [7]⟩).toOption = some (.octSeed 7) := by decide
theorem test_decode_octHost : (decode ⟨0x06#8 ++ 0x02#8 ++ 0x00#8 ++ 0x00#8, []⟩).toOption = some .octHost := by decide
theorem test_decode_octNextP : (decode ⟨0x06#8 ++ 0x03#8 ++ 0x00#8 ++ 0x00#8, []⟩).toOption = some .octNextP := by decide
theorem test_decode_octNextPP : (decode ⟨0x06#8 ++ 0x03#8 ++ 0x01#8 ++ 0x00#8, []⟩).toOption = some .octNextPP := by decide
theorem test_decode_octNextSS : (decode ⟨0x06#8 ++ 0x03#8 ++ 0x02#8 ++ 0x00#8, []⟩).toOption = some .octNextSS := by decide
theorem test_decode_octEq : (decode ⟨0x06#8 ++ 0x04#8 ++ 0x00#8 ++ 0x00#8, [1, 2, 3, 4, 5, 6, 7, 8]⟩).toOption = some (.octEq o18) := by decide
theorem test_decode_entInit : (decode ⟨0x07#8 ++ 0x00#8 ++ 0x00#8 ++ 0x00#8, [4]⟩).toOption = some (.entInit 4) := by decide
theorem test_decode_entAdd : (decode ⟨0x07#8 ++ 0x01#8 ++ 0x00#8 ++ 0x00#8, [4]⟩).toOption = some (.entAdd 4) := by decide
theorem test_decode_entEntropy : (decode ⟨0x07#8 ++ 0x02#8 ++ 0x00#8 ++ 0x00#8, []⟩).toOption = some .entEntropy := by decide
theorem test_decode_entEfficiency : (decode ⟨0x07#8 ++ 0x03#8 ++ 0x00#8 ++ 0x00#8, []⟩).toOption = some .entEfficiency := by decide
theorem test_decode_arr_no_plus : (decode ⟨0x04030100, []⟩).toOption = none := by decide
theorem test_decode_arrInit_count :
    (decode ⟨0x04000000, [0, 0, 0, 0, 0, 0, 0, 0, 0, 0, 0, 0, 0, 0, 0, 0]⟩).toOption = none := by decide
theorem test_decode_table_word : decodeTableWord 32 0x01000000 = some (.rotl 0 0) := by decide
theorem test_listing : (Instr.pairInit ⟨1, 255⟩).listing = "PAIR.INIT 0x1, 0xff" := by decide +kernel
theorem test_pseudo_addn : (Pseudo.entAddn [3, 1]).expand = [.entAdd 3, .entAdd 1] := by decide

/-! ROT (V1). -/

theorem test_rotl_half : answerOf (.rotl 0x0123456789abcdef 63) State.reset = okWord 0x8091a2b3c4d5e6f7 := by decide
theorem test_rotl_out_of_range_draws : (after (.rotl 1 64) State.reset).draws = 1 := by decide

/-! SM (V2). -/

theorem test_smInit : (after (.smInit 7) State.reset).sm = { x := 7, v := true } := by decide
theorem test_smNext_first : answerOf .smNext (withSm 0) = okWord 0xe220a8397b1dcdaf := by decide
theorem test_smNext_wraps : (after .smNext (withSm 0xffffffffffffffff)).sm.x = 0x9e3779b97f4a7c14 := by decide
theorem test_smEq : answerOf (.smEq 8) (withSm 7) = okWord 0 := by decide
theorem test_smEq_unconstructed : answerOf (.smEq 0) State.reset = faulted 0x11 := by decide

/-! PAIR (V3, V4, V5). -/

theorem test_pairInit_zero : (after (.pairInit ⟨0, 0⟩) State.reset).fault = ⟨true, 0x01, 0x03000000⟩ := by decide
theorem test_pairInit_one : (after (.pairInit ⟨0, 1⟩) State.reset).pair = { s := ⟨0, 1⟩, v := true } := by decide
theorem test_pairSeed : (after (.pairSeed 0xe220a8397b1dcdaf) State.reset).pair.s =
    ⟨0xa706dd2f4d197e6f, 0xb382a305f4414f5e⟩ := by decide
theorem test_pairHost_queued : (after .pairHost (State.reset.setHrand [0, 9])).pair.s =
    ⟨0xe220a8397b1dcdaf, 0x6e789e6aa1b965f4⟩ := by decide
theorem test_pairHost_consumes : (after .pairHost (State.reset.setHrand [0, 9])).hrand = [9] := by decide
theorem test_pairNextP : answerOf .pairNextP (withPair ⟨0x0061026302000003, 0x2060006000000c00⟩) =
    okWord 0x20c102c302000c03 := by decide
theorem test_pairNextP_state : (after .pairNextP (withPair ⟨0x0061026302000003, 0x2060006000000c00⟩)).pair.s =
    ⟨0x410000030d036d01, 0x4001806400204060⟩ := by decide
theorem test_pairNextPP : answerOf .pairNextPP (withPair ⟨0x0061026302000003, 0x2060006000000c00⟩) =
    okWord 0x05e706631a064185 := by decide
theorem test_pairNextSS : answerOf .pairNextSS (withPair ⟨0x0061026302000003, 0x2060006000000c00⟩) =
    okWord 0x86b5b3ad00004380 := by decide
theorem test_pairEq : answerOf (.pairEq ⟨1, 2⟩) (withPair ⟨1, 2⟩) = okWord 1 := by decide
theorem test_pairEq_swapped : answerOf (.pairEq ⟨2, 1⟩) (withPair ⟨1, 2⟩) = okWord 0 := by decide

/-! ARR (V3, V4, V6). -/

theorem test_arrInit_no_truncation : answerOf (.arrInit 0x0000000100000003 a16) State.reset = faulted 0x02 := by decide
theorem test_arrInit_pointer_first : answerOf (.arrInit 16 z16) State.reset = faulted 0x02 := by decide
theorem test_arrSeed_pointer : (after (.arrSeed 0) State.reset).arr.p = 14 := by decide
theorem test_arrSeed_last : arrGet (after (.arrSeed 0) State.reset).arr.a 15 = 0x7d29825c75521255 := by decide
theorem test_arrHost_queued : arrGet (after .arrHost (State.reset.setHrand [0])).arr.a 7 = 0x3ee5789041c98ac3 := by decide
theorem test_arrNextS : answerOf .arrNextS (withArr 15 a16) = okWord 0x9e3779b97f4a7c13 := by decide
theorem test_arrNextS_words : (after .arrNextS (withArr 15 a16)).arr =
    { a := #v[0x0000011000000000, 2, 3, 4, 5, 6, 7, 8, 9, 10, 11, 12, 13, 14, 15, 0x000000008a000011], p := 0, v := true } := by
  decide
theorem test_arrNextSS : answerOf .arrNextSS (withArr 7 a16) = okWord 0x000000000000ca80 := by decide
theorem test_arrNextSS_words : (after .arrNextSS (withArr 7 a16)).arr =
    { a := #v[1, 2, 3, 4, 5, 6, 7, 0x000000001a000001, 0x0000001000000000, 10, 11, 12, 13, 14, 15, 16], p := 8, v := true } := by
  decide
theorem test_arrEq : answerOf (.arrEq a16) (withArr 3 a16) = okWord 1 := by decide
theorem test_arrEq_differs : answerOf (.arrEq z16) (withArr 3 a16) = okWord 0 := by decide

/-! QUAD (V3, V4, V7). -/

theorem test_quadInit_zero : (after (.quadInit ⟨0, 0, 0, 0⟩) State.reset).fault = ⟨true, 0x01, 0x05000000⟩ := by decide
theorem test_quadInit_third : answerOf (.quadInit ⟨0, 0, 1, 0⟩) State.reset = okNone := by decide
theorem test_quadSeed : (after (.quadSeed 0x6e789e6aa1b965f4) State.reset).quad.s =
    ⟨0x46b73e79f0c37c00, 0x374327c63d0cc8a6, 0xe10cf86ae3079278, 0x26a223c360b54f32⟩ := by decide
theorem test_quadHost_queued : (after .quadHost (State.reset.setHrand [0])).quad.s.s3 = 0xf88bb8a8724c81ec := by decide
theorem test_quadNextP : answerOf .quadNextP (withQuad ⟨0x0000c00000000007, 0x40005, 0x40005, 0x18000000⟩) =
    okWord 0x0000c00018000007 := by decide
theorem test_quadNextP_state : (after .quadNextP (withQuad ⟨0x0000c00000000007, 0x40005, 0x40005, 0x18000000⟩)).quad.s =
    ⟨0x0000c00018040002, 0x0000c00000000007, 0x0000c008000e0002, 0x8000a00000000300⟩ := by decide
theorem test_quadNextPP : answerOf .quadNextPP (withQuad ⟨0x0000c00000000007, 0x40005, 0x40005, 0x18000000⟩) =
    okWord 0x000cc00003800067 := by decide
theorem test_quadNextSS : answerOf .quadNextSS (withQuad ⟨0x0000c00000000007, 0x40005, 0x40005, 0x18000000⟩) =
    okWord 0x000000005a007080 := by decide
theorem test_quadEq : answerOf (.quadEq q1234) (withQuad q1234) = okWord 1 := by decide
theorem test_quadEq_last : answerOf (.quadEq ⟨1, 2, 3, 5⟩) (withQuad q1234) = okWord 0 := by decide

/-! OCT (V3, V4, V8). -/

theorem test_octInit_zero : answerOf (.octInit ⟨0, 0, 0, 0, 0, 0, 0, 0⟩) State.reset = faulted 0x01 := by decide
theorem test_octInit_last : answerOf (.octInit ⟨0, 0, 0, 0, 0, 0, 0, 1⟩) State.reset = okNone := by decide
theorem test_octSeed : (after (.octSeed 0) State.reset).oct.s =
    ⟨0xe220a8397b1dcdaf, 0x6e789e6aa1b965f4, 0x06c45d188009454f, 0xf88bb8a8724c81ec,
      0x1b39896a51a8749b, 0x53cb9f0c747ea2ea, 0x2c829abe1f4532e1, 0xc584133ac916ab3c⟩ := by decide
theorem test_octHost_queued : (after .octHost (State.reset.setHrand [0])).oct.s.s7 = 0xc584133ac916ab3c := by decide
theorem test_octNextP : answerOf .octNextP (withOct ⟨0x100d, 4, 4, 0, 5, 4, 0x180100a, 0x0000300000200000⟩) =
    okWord 0x0000000000001011 := by decide
theorem test_octNextP_state : (after .octNextP (withOct ⟨0x100d, 4, 4, 0, 5, 4, 0x180100a, 0x0000300000200000⟩)).oct.s =
    ⟨0x1800007, 0x100d, 0x1009, 5, 5, 0, 0x0000300001a0300a, 0x0000040000000006⟩ := by decide
theorem test_octNextPP : answerOf .octNextPP (withOct ⟨0x100d, 4, 4, 0, 5, 4, 0x180100a, 0x0000300000200000⟩) =
    okWord 0x0000000020220004 := by decide
theorem test_octNextSS : answerOf .octNextSS (withOct ⟨0x100d, 4, 4, 0, 5, 4, 0x180100a, 0x0000300000200000⟩) =
    okWord 0x0000000000005a00 := by decide
theorem test_octEq : answerOf (.octEq o18) (withOct o18) = okWord 1 := by decide
theorem test_octEq_unconstructed : answerOf (.octEq o18) State.reset = faulted 0x11 := by decide

/-! ENT (V3, V9). -/

theorem test_entInit_negative : answerOf (.entInit 0x8000000000000000) State.reset = faulted 0x03 := by decide
theorem test_entInit_largest : (after (.entInit 0x7fffffffffffffff) State.reset).ent.d = 0x7fffffffffffffff := by decide
theorem test_entAdd_again : (after (.entAdd 1) (withEnt 4 [(0, 1), (1, 1)] 2)).ent =
    { d := 4, t := [(0, 1), (1, 2)], n := 3, v := true } := by decide
theorem test_entAdd_between : (after (.entAdd 2) (withEnt 2 [(1, 1), (3, 1)] 2)).ent.t = [(1, 1), (2, 1), (3, 1)] := by decide
theorem test_entEntropy_uniform : answerOf .entEntropy (withEnt 4 [(0, 1), (1, 1), (2, 1), (3, 1)] 4) =
    okWord 0x4000000000000000 := by decide +kernel
theorem test_entEntropy_exceeded : (after .entEntropy (withEnt 2 [(10, 1), (20, 1), (30, 1)] 3)).fault =
    ⟨true, 0x04, 0x07020000⟩ := by decide
theorem test_entEfficiency_two_thirds : answerOf .entEfficiency (withEnt 8 [(0, 1), (1, 1), (2, 1), (3, 1)] 4) =
    okWord 0x3fe5555555555555 := by decide +kernel
theorem test_entEfficiency_three_quarters : answerOf .entEfficiency (withEnt 4 [(0, 1), (1, 2), (3, 1)] 4) =
    okWord 0x3fe8000000000000 := by decide +kernel

/-! The binary64 operations behind the scores, on patterns of G7 and rows of V9. -/

theorem test_entropy_one_key_is_negative_zero : entropyRef 16 [(5, 16)] = 0x8000000000000000 := by decide +kernel
theorem test_efficiency_sparse : efficiencyRef 65536 [(7, 5), (9, 5)] = 0x3fb0000000000000 := by decide +kernel
theorem test_efficiency_other_keys : efficiencyRef 2 [(0x8000000000000000, 1), (0xffffffffffffffff, 1)] =
    0x3ff0000000000000 := by decide +kernel
/-- `2^53 + 1` lies halfway between two binary64 values and rounds to the even one. -/
theorem test_f64OfNat_ties_to_even : f64OfNat 9007199254740993 = 0x4340000000000000 := by decide +kernel
/-- `1/3` in binary64. -/
theorem test_fdiv_third : fdiv 0 f64One 0x4008000000000000 = 0x3fd5555555555555 := by decide +kernel
/-- `-0.0 / +0.0` is the NaN given (R125). -/
theorem test_fdiv_zero_by_zero : fdiv 0x7ff8000000000000 0x8000000000000000 0 = 0x7ff8000000000000 := by decide +kernel

/-! The port: faults, halting, reset (V10, V11, P5). -/

theorem test_step_illegal_word : (nextOr State.reset (step (State.reset.present ⟨0x00000000, []⟩))).fault =
    ⟨true, 0x10, 0x00000000⟩ := by decide
theorem test_step_count_before_valid :
    (nextOr State.reset (step (State.reset.present ⟨0x03030000, [1]⟩))).response = faulted 0x10 := by decide
theorem test_step_halted :
    (nextOr State.reset (step ((State.reset.raise .invalidState 0x05000000).present ⟨0x00000000, []⟩))).response =
      haltedBy 0x01 := by decide
theorem test_status_codes : (Status.code .ok, Status.code .fault, Status.code .halted) = (0, 1, 2) := by decide
theorem test_step_halted_keeps_hrand :
    (nextOr State.reset (step (((State.reset.raise .invalidState 0x05000000).setHrand [4]).present ⟨0x03020000, []⟩))).hrand =
      [4] := by decide
theorem test_step_reset_clears :
    (nextOr State.reset (step (((withOct o18).raise .invalidState 0x05000000).setPort [.reset]))).fault =
      ⟨false, 0, 0⟩ := by decide
theorem test_fetch_word : (nextOr State.reset (step (State.reset.withFetchWord 32 0x03030000))).response = faulted 0x11 := by
  decide

/-! Witnesses: for every obligation with hypotheses, a state and operands that meet them together, one per clause and at
the boundary where a clause has one. -/

/-- A state after reset with `es` at the port. -/
def facing (es : List HostEvent) : State := State.reset.setPort es

/-- A halted state with `es` at the port. -/
def haltedFacing (es : List HostEvent) : State := (State.reset.raise .invalidState 0x05000000).setPort es

theorem witness_EncodeOfDecode : decode ⟨0x07010000, [0xffffffffffffffff]⟩ = .ok (.entAdd 0xffffffffffffffff) := by decide
theorem witness_Decode_wellFormed : (Request.mk 0x04030300 []).wellFormed = true := by decide
theorem witness_Decode_word : (Request.mk 0x04030000 []).wordLegal = false := by decide
theorem witness_Decode_count :
    (Request.mk 0x07000000 []).wordLegal = true ∧ (Request.mk 0x07000000 []).wellFormed = false := by decide
theorem witness_StepRunsDecodedCommand :
    (facing [.transaction ⟨0x02000000, [3]⟩]).fault.halt = false ∧
      (facing [.transaction ⟨0x02000000, [3]⟩]).port = .transaction ⟨0x02000000, [3]⟩ :: [] ∧
      decode ⟨0x02000000, [3]⟩ = .ok (.smInit 3) := by decide
theorem witness_HaltedTransactionAnswered :
    (haltedFacing [.transaction ⟨0, []⟩]).fault.halt = true ∧
      (haltedFacing [.transaction ⟨0, []⟩]).port = .transaction ⟨0, []⟩ :: [] := by decide
theorem witness_IllegalTransactionFaults :
    (facing [.transaction ⟨0x08000000, []⟩]).fault.halt = false ∧
      (facing [.transaction ⟨0x08000000, []⟩]).port = .transaction ⟨0x08000000, []⟩ :: [] ∧
      (Request.mk 0x08000000 []).wellFormed = false := by decide
theorem witness_EveryTransactionAnswered :
    (facing [.transaction ⟨0x06040000, []⟩, .reset]).port = .transaction ⟨0x06040000, []⟩ :: [.reset] := by decide
theorem witness_NothingPresented : (withPair ⟨1, 2⟩).port = [] := by decide
theorem witness_ResetInputClears : (haltedFacing [.reset, .reset]).port = .reset :: [.reset] := by decide
theorem witness_Concurrent :
    (facing [.concurrent ⟨0x02030000, []⟩ ⟨0x02030000, []⟩]).port =
      .concurrent ⟨0x02030000, []⟩ ⟨0x02030000, []⟩ :: [] := by decide
theorem witness_OnlyResetLeavesHalted :
    (∃ t, step (haltedFacing [.transaction ⟨0x02000000, [3]⟩]) = .next t) ∧
      (haltedFacing [.transaction ⟨0x02000000, [3]⟩]).fault.halt = true ∧
      ∀ rest, (haltedFacing [.transaction ⟨0x02000000, [3]⟩]).port ≠ .reset :: rest :=
  ⟨⟨_, rfl⟩, rfl, fun _ h => by cases h⟩

theorem witness_Unconstructed : validBit? State.reset (.entAdd 1) = some false := by decide
theorem witness_Constructed : validBit? (withEnt 1 [] 0) (.entAdd 1) ≠ some false := by decide
theorem witness_FaultFreeCommands :
    mayFaultConstructed (.arrEq z16) = false ∧ validBit? (withArr 0 a16) (.arrEq z16) ≠ some false := by decide

theorem witness_Rotl_in_range : (0 < (1 : Word).toNat ∧ (1 : Word).toNat < 64) ∧ 0 < (63 : Word).toNat ∧ (63 : Word).toNat < 64 := by
  decide
theorem witness_Rotl_zero : (0 : Word).toNat = 0 := by decide
theorem witness_Rotl_wide : 64 ≤ (64 : Word).toNat ∧ 64 ≤ (0xffffffffffffffff : Word).toNat := by decide
theorem witness_Sm_unconstructed : State.reset.sm.v = false := by decide
theorem witness_Sm_constructed : (withSm 0xffffffffffffffff).sm.v = true := by decide
theorem witness_SplitMixLaws :
    Params.wf { Params.default with smShift1 := 1, smShift2 := 63 } ∧ 2 ^ 64 - 1 < 2 ^ 64 ∧
      expanderWord Params.default 0 (2 ^ 64 - 1) = expanderWord Params.default 0 (2 ^ 64 - 1) :=
  ⟨by decide, by decide, rfl⟩
theorem witness_RetryLoopRunsOnce : Params.default.wf ∧ 2 ≤ 2 := by decide

theorem witness_PairInit_zero : (PairWords.mk 0 0).s0 = 0 ∧ (PairWords.mk 0 0).s1 = 0 := by decide
theorem witness_PairInit_valid : (PairWords.mk 0 1).s0 ≠ 0 ∨ (PairWords.mk 0 1).s1 ≠ 0 := by decide
theorem witness_Host_queued : (State.reset.setHrand [0, 1]).hrand = 0 :: [1] := by decide
theorem witness_Host_free : State.reset.hrand = [] := by decide
theorem witness_Pair_unconstructed : State.reset.pair.v = false := by decide
theorem witness_Pair_constructed : (withPair ⟨0, 1⟩).pair.v = true := by decide

theorem witness_ArrInit_pointer : 16 ≤ (16 : Word).toNat := by decide
theorem witness_ArrInit_zero : (15 : Word).toNat < 16 ∧ ∀ i : BitVec 4, arrGet z16 i = 0 := by decide
theorem witness_ArrInit_valid : (15 : Word).toNat < 16 ∧ ∃ i : BitVec 4, arrGet (arrSet z16 15 1) i ≠ 0 :=
  ⟨by decide, 15, by decide⟩
theorem witness_ArrSeed_default : State.reset.params.ptrMap = .topFour := by decide
theorem witness_Arr_unconstructed : State.reset.arr.v = false := by decide
theorem witness_Arr_constructed : (withArr 15 a16).arr.v = true := by decide
theorem witness_ArrEq_equal : (withArr 15 a16).arr.v = true ∧ ∀ i : BitVec 4, arrGet (withArr 15 a16).arr.a i = arrGet a16 i := by
  decide
theorem witness_ArrEq_unequal :
    (withArr 15 a16).arr.v = true ∧ ∃ i : BitVec 4, arrGet (withArr 15 a16).arr.a i ≠ arrGet z16 i :=
  ⟨by decide, 0, by decide⟩
theorem witness_ArrPointerTrace :
    (withArr 15 a16).arr.v = true ∧ ∀ i ∈ [Instr.arrNextS, .arrNextSS], i = Instr.arrNextS ∨ i = .arrNextSS := by decide

theorem witness_QuadInit_zero :
    (QuadWords.mk 0 0 0 0).s0 = 0 ∧ (QuadWords.mk 0 0 0 0).s1 = 0 ∧ (QuadWords.mk 0 0 0 0).s2 = 0 ∧
      (QuadWords.mk 0 0 0 0).s3 = 0 := by decide
theorem witness_QuadInit_valid :
    (QuadWords.mk 0 0 0 1).s0 ≠ 0 ∨ (QuadWords.mk 0 0 0 1).s1 ≠ 0 ∨ (QuadWords.mk 0 0 0 1).s2 ≠ 0 ∨
      (QuadWords.mk 0 0 0 1).s3 ≠ 0 := by decide
theorem witness_Quad_unconstructed : State.reset.quad.v = false := by decide
theorem witness_Quad_constructed : (withQuad ⟨0, 0, 0, 1⟩).quad.v = true := by decide

theorem witness_OctInit_zero :
    let w : OctWords := ⟨0, 0, 0, 0, 0, 0, 0, 0⟩
    w.s0 = 0 ∧ w.s1 = 0 ∧ w.s2 = 0 ∧ w.s3 = 0 ∧ w.s4 = 0 ∧ w.s5 = 0 ∧ w.s6 = 0 ∧ w.s7 = 0 := by decide
theorem witness_OctInit_valid :
    let w : OctWords := ⟨0, 0, 0, 0, 0, 0, 0, 1⟩
    w.s0 ≠ 0 ∨ w.s1 ≠ 0 ∨ w.s2 ≠ 0 ∨ w.s3 ≠ 0 ∨ w.s4 ≠ 0 ∨ w.s5 ≠ 0 ∨ w.s6 ≠ 0 ∨ w.s7 ≠ 0 := by decide
theorem witness_Oct_unconstructed : State.reset.oct.v = false := by decide
theorem witness_Oct_constructed : (withOct o18).oct.v = true := by decide

theorem witness_UpdatesAreBijective :
    pairValid ⟨0, 0⟩ = false ∧ quadValid ⟨0, 0, 0, 0⟩ = false ∧ octValid ⟨0, 0, 0, 0, 0, 0, 0, 0⟩ = false ∧
      arrValid z16 = false := by decide
theorem witness_ScramblesShareTheUpdate :
    isDraw .arrNextS = true ∧ isDraw .arrNextSS = true ∧ unitOf .arrNextS = unitOf .arrNextSS ∧
      validBit? (withArr 15 a16) .arrNextS = some true := by decide
theorem witness_DrawStreamsNeverFail :
    ∀ i ∈ [Instr.octNextP, .octNextSS], isDraw i = true ∧ unitOf i = .oct ∧ validBit? (withOct o18) i = some true := by decide
theorem witness_SeededStreams :
    State.reset.params = (withQuad q1234).params ∧
      ∀ i ∈ [Instr.quadNextPP, .quadNextP], isDraw i = true ∧ unitOf i = classUnit .quad := by decide
theorem witness_SeededStreams_host :
    (State.reset.setHrand [7]).hrand = 7 :: [] ∧ ((withQuad q1234).setHrand [7, 8]).hrand = 7 :: [8] ∧
      (State.reset.setHrand [7]).params = ((withQuad q1234).setHrand [7, 8]).params := by decide

theorem witness_EntInit_refused : (0 : Word).toInt ≤ 0 ∧ (0x8000000000000000 : Word).toInt ≤ 0 := by decide
theorem witness_EntInit_accepted : 0 < (1 : Word).toInt ∧ 0 < (0x7fffffffffffffff : Word).toInt := by decide
theorem witness_Ent_unconstructed : State.reset.ent.v = false := by decide

/-- An estimator of a CORE whose table holds one key. -/
def smallEnt (n : Word) : State := { withEnt 4 [(5, 1)] n with params := { Params.default with entCapacity := some 1 } }

theorem witness_EntAdd_full :
    (smallEnt 1).ent.v = true ∧ tableHas (smallEnt 1).ent.t 6 = false ∧
      (smallEnt 1).params.entCapacity = some (smallEnt 1).ent.t.length := by decide
theorem witness_EntAdd_overflow :
    (smallEnt 0xffffffffffffffff).ent.v = true ∧
      ¬(tableHas (smallEnt 0xffffffffffffffff).ent.t 5 = false ∧
        (smallEnt 0xffffffffffffffff).params.entCapacity = some (smallEnt 0xffffffffffffffff).ent.t.length) ∧
      (smallEnt 0xffffffffffffffff).ent.n.toNat = 2 ^ 64 - 1 := by decide
theorem witness_EntAdd_counts :
    (smallEnt 1).ent.v = true ∧
      ¬(tableHas (smallEnt 1).ent.t 5 = false ∧ (smallEnt 1).params.entCapacity = some (smallEnt 1).ent.t.length) ∧
      (smallEnt 1).ent.n.toNat ≠ 2 ^ 64 - 1 ∧ (smallEnt 1).ent.t.Pairwise (fun e f => e.1 < f.1) := by decide
theorem witness_EntScores_exceeded :
    (withEnt 1 [(5, 1), (6, 1)] 2).ent.v = true ∧
      (withEnt 1 [(5, 1), (6, 1)] 2).ent.d.toNat < (withEnt 1 [(5, 1), (6, 1)] 2).ent.t.length := by decide
theorem witness_EntScores_empty :
    (withEnt 1 [] 0).ent.v = true ∧ (withEnt 1 [] 0).ent.t.length ≤ (withEnt 1 [] 0).ent.d.toNat ∧ (withEnt 1 [] 0).ent.n = 0 := by
  decide
theorem witness_EntScores_scored :
    (withEnt 2 [(5, 1), (6, 1)] 2).ent.v = true ∧
      (withEnt 2 [(5, 1), (6, 1)] 2).ent.t.length ≤ (withEnt 2 [(5, 1), (6, 1)] 2).ent.d.toNat ∧
      (withEnt 2 [(5, 1), (6, 1)] 2).ent.n ≠ 0 := by decide
theorem witness_OneKey :
    (withEnt 0x7fffffffffffffff [(0, 1)] 1).ent.v = true ∧ State.reset.params.numerics = .reference ∧
      (withEnt 0x7fffffffffffffff [(0, 1)] 1).ent.n ≠ 0 ∧ (withEnt 0x7fffffffffffffff [(0, 1)] 1).ent.d ≠ 0 ∧
      (1 : Word) ≠ 0 ∧ (withEnt 0x7fffffffffffffff [(0, 1)] 1).ent.t = [(0, 1)] := by decide
theorem witness_DomainOne :
    (withEnt 1 [(0, 0xffffffffffffffff)] 0xffffffffffffffff).ent.v = true ∧
      (withEnt 1 [(0, 0xffffffffffffffff)] 0xffffffffffffffff).ent.n ≠ 0 ∧
      (withEnt 1 [(0, 0xffffffffffffffff)] 0xffffffffffffffff).ent.d = 1 ∧ (0xffffffffffffffff : Word) ≠ 0 := by decide
theorem witness_DomainIsFixed :
    (∃ t, exec (.entAdd 5) (smallEnt 1) = .next t) ∧ ∀ x, (Instr.entAdd 5) ≠ .entInit x := ⟨⟨_, rfl⟩, fun _ h => by cases h⟩
theorem witness_ObservationsCommute :
    (smallEnt 1).ent.t.Pairwise (fun e f => e.1 < f.1) ∧ (smallEnt 1).fault.halt = false ∧ [5, 5].Perm [5, 5] ∧
      (runCommands (Pseudo.entAddn [5, 5]).expand (smallEnt 1)).1.fault = (smallEnt 1).fault := by decide
theorem witness_ObservationsCommute_swapped :
    (withEnt 4 [(5, 1)] 1).ent.t.Pairwise (fun e f => e.1 < f.1) ∧ (withEnt 4 [(5, 1)] 1).fault.halt = false ∧
      ([1, 7] : List Word).Perm [7, 1] ∧
      (runCommands (Pseudo.entAddn [1, 7]).expand (withEnt 4 [(5, 1)] 1)).1.fault = (withEnt 4 [(5, 1)] 1).fault ∧
      (runCommands (Pseudo.entAddn [7, 1]).expand (withEnt 4 [(5, 1)] 1)).1.fault = (withEnt 4 [(5, 1)] 1).fault := by decide
theorem witness_RealScalingCancels : 0 < 1 := by decide
theorem witness_RealScoreBounds :
    (∀ e ∈ [((5 : Word), (1 : Word)), (6, 3)], e.2 ≠ 0) ∧ [((5 : Word), (1 : Word)), (6, 3)] ≠ [] ∧
      [((5 : Word), (1 : Word)), (6, 3)].length ≤ 2 ∧ 2 ≤ 2 :=
  ⟨by simp, by simp, by simp, by simp⟩

theorem witness_UnitsAreIndependent :
    isHost (.smInit 1) = false ∧ State.reset.quad = (withOct o18).quad ∧ unitOf .quadHost = .quad ∧
      State.reset.hrand = (withOct o18).hrand ∧ State.reset.draws = (withOct o18).draws ∧
      State.reset.params = (withOct o18).params := by decide
theorem witness_ValidBitsAreKept :
    (∃ t, step ((withOct o18).present ⟨0x06030000, []⟩) = .next t) ∧
      (∀ rest, ((withOct o18).present ⟨0x06030000, []⟩).port ≠ .reset :: rest) ∧
      ((withOct o18).present ⟨0x06030000, []⟩).oct.v = true :=
  ⟨⟨_, rfl⟩, fun _ h => (by cases h), rfl⟩

/-- A state other than reset's: ARR constructed, an estimator with three observations, a transaction at the port. -/
def busy : State :=
  ((withEnt 4 [(5, 1), (9, 2)] 3).setArr { a := a16, p := 15, v := true }).present ⟨0x04030300, []⟩

theorem witness_Inv_banks : busy.banksNonZero :=
  ⟨fun h => (by cases h), fun _ => rfl, fun h => (by cases h), fun h => (by cases h)⟩
theorem witness_Inv_estimator : busy.estimatorConsistent :=
  ⟨⟨by decide, by simp [show busy.ent.t = [(5, 1), (9, 2)] from rfl]⟩, by decide, fun _ => (by decide), fun _ h => (by cases h)⟩
theorem witness_Inv_fault : busy.faultConsistent := ⟨rfl, rfl⟩
theorem witness_Inv_response : busy.responseConsistent := fun _ h => by cases h
theorem witness_StepKeepsInvariant : busy.Inv ∧ ∃ t, step busy = .next t :=
  ⟨⟨by decide, witness_Inv_banks, witness_Inv_estimator, witness_Inv_fault, witness_Inv_response⟩, _, rfl⟩

/-- Unlike data in two unconstructed banks. -/
theorem witness_Indistinguishable :
    indistinguishable (withOct o18) ((withOct o18).setQuad { s := q1234, v := false }) ∧
      withOct o18 ≠ (withOct o18).setQuad { s := q1234, v := false } := by
  refine ⟨?_, by decide⟩
  unfold indistinguishable agreeWhenValid
  decide

end Sys2Proof.Tests
end

section
/-! The port's event that has no step: two transactions at once (R35). -/

namespace Sys2Proof.Machine

/-- Neither transaction is taken: the answer does not depend on what the two ask or on whether CORE is halted. -/
theorem accept_of_port_concurrent {s : State} {r₁ r₂ : Request} {rest : List HostEvent}
    (hport : s.port = .concurrent r₁ r₂ :: rest) : s.accept = .concurrent := by
  simp only [State.accept, hport]

/-- Settles O12: the port hands on no command, so `step` takes its refusing branch. -/
theorem concurrentTransactionsRefused : Obligations.ConcurrentTransactionsRefused := by
  intro s r₁ r₂ rest hport
  have haccept : s.accept = .concurrent := accept_of_port_concurrent hport
  simp only [step, haccept]

end Sys2Proof.Machine
end

section
/-! ROTL: where `rotl64` puts each bit (R55), and what the command answers on either side of its legal range (R56). -/

namespace Sys2Proof.Machine

/-- R55. A bit either stays within the word, when it moves up by `k`, or wraps round to the low `k` bits. -/
theorem rotl64_getLsbD_add_mod (x : Word) {k i : Nat} (hk : k < 64) (hi : i < 64) :
    (rotl64 x k).getLsbD ((i + k) % 64) = x.getLsbD i := by
  rw [rotl64_eq_rotateLeft x k hk, BitVec.getLsbD_rotateLeft_of_le hk]
  by_cases hfits : i + k < 64
  · have hpos : (i + k) % 64 = i + k := Nat.mod_eq_of_lt hfits
    simp [hpos, hfits]
  · have hpos : (i + k) % 64 = i + k - 64 := by omega
    have hlow : i + k - 64 < k := by omega
    have hsource : 64 - k + (i + k - 64) = i := by omega
    simp [hpos, hlow, hsource]

theorem exec_rotl (x k : Word) (s : State) : exec (.rotl x k) s = execRotl x k s := rfl

theorem execRotl_of_inRange (x k : Word) (s : State) (hpos : 0 < k.toNat) (hlt : k.toNat < 64) :
    execRotl x k s = .next (s.answer (some (rotl64 x k.toNat))) := by
  have hamount : rotAmount? k = some k.toNat := (rotAmount?_eq_some k _).mpr ⟨⟨hpos, hlt⟩, rfl⟩
  simp only [execRotl, hamount]

theorem execRotl_of_outOfRange (x k : Word) (s : State) (hout : ¬(0 < k.toNat ∧ k.toNat < 64)) :
    execRotl x k s = .next s.answerAny64 := by
  have hamount : rotAmount? k = none := (rotAmount?_eq_none k).mpr hout
  simp only [execRotl, hamount]

/-- Settles O17: in range the answer is the rotated word, whose bits `rotl64_getLsbD_add_mod` places; out of range it is
the free word of the current draw (R57). -/
theorem rotlRotatesBits : Obligations.RotlRotatesBits := by
  intro x k s
  refine ⟨rfl, fun hpos hlt => ⟨rotl64 x k.toNat, ?_, fun i hi => ?_⟩, fun hout => ⟨Config.any64 s.draws, ?_⟩⟩
  · rw [exec_rotl, execRotl_of_inRange x k s hpos hlt, answer_eq]
  · exact rotl64_getLsbD_add_mod x hlt hi
  · rw [exec_rotl, execRotl_of_outOfRange x k s (by omega), answerAny64_eq]

end Sys2Proof.Machine
end

section
/-! SplitMix64: what SM's three commands answer (R59, R60, R61). -/

namespace Sys2Proof.Machine

/-- `boolWord` of a comparison is the 1 or 0 of an EQ result (R42). -/
theorem boolWord_beq {α : Type} [DecidableEq α] (a b : α) : boolWord (a == b) = if a = b then 1 else 0 := by
  simp only [boolWord, beq_iff_eq]

/-- The model's mixing is R58's output map for the two shift amounts it was built with. -/
theorem smMix_eq_splitMixOutput (p : Params) (x : Word) : smMix p x = splitMixOutput p.smShift1 p.smShift2 x := rfl

theorem exec_smInit (x : Word) (s : State) : exec (.smInit x) s = execSmInit x s := rfl
theorem exec_smNext (s : State) : exec .smNext s = execSmNext s := rfl
theorem exec_smEq (x : Word) (s : State) : exec (.smEq x) s = execSmEq x s := rfl

/-- Settles O18. -/
theorem smInitLoads : Obligations.SmInitLoads := by
  intro x s
  refine ⟨rfl, ?_⟩
  rw [exec_smInit, execSmInit, answer_setSm]

/-- Settles O19: the valid bit decides between R131's fault and the step of R58. -/
theorem smNextSteps : Obligations.SmNextSteps := by
  intro s
  refine ⟨rfl, fun hv => ?_, fun hv => ?_⟩
  · rw [exec_smNext, execSmNext, hv, whenConstructed_false, raise_eq]
    rfl
  · rw [exec_smNext, execSmNext, hv, whenConstructed_true, answer_setSm, smStep_fst, smStep_snd,
      smMix_eq_splitMixOutput, smAdvance_eq]
    simp only [hv, smGamma]

/-- Settles O20: the valid bit decides between R131's fault and the comparison. -/
theorem smEqCompares : Obligations.SmEqCompares := by
  intro x s
  refine ⟨rfl, fun hv => ?_, fun hv => ?_⟩
  · rw [exec_smEq, execSmEq, hv, whenConstructed_false, raise_eq]
    rfl
  · rw [exec_smEq, execSmEq, hv, whenConstructed_true, answer_eq, boolWord_beq]

end Sys2Proof.Machine
end

section
/-! R62: the walk of the SplitMix64 state is one cycle and its output map a bijection, whatever the shift amounts. -/

namespace Sys2Proof.Machine

/-- The xor-shift of R58: a word xored with itself shifted right by `k`. -/
def xorShift (k : Nat) (x : Word) : Word := x ^^^ (x >>> k)

theorem xorShift_xor (k : Nat) (x y : Word) : xorShift k (x ^^^ y) = xorShift k x ^^^ xorShift k y := by
  rw [xorShift, xorShift, xorShift, BitVec.ushiftRight_xor_distrib]
  ac_rfl

/-- A word that its xor-shift takes to 0 equals its own right shift, which at least halves the value: the word is 0. -/
theorem eq_zero_of_xorShift_eq_zero {k : Nat} (hk : 0 < k) {d : Word} (h : xorShift k d = 0) : d = 0 := by
  by_contra hne
  have hpos : 0 < d.toNat := Nat.pos_of_ne_zero fun h0 => hne (BitVec.eq_of_toNat_eq h0)
  have hhalf : d.toNat / 2 ^ k < d.toNat := Nat.div_lt_self hpos (Nat.one_lt_two_pow hk.ne')
  have hshift : d.toNat = d.toNat / 2 ^ k := by
    rw [← Nat.shiftRight_eq_div_pow, ← BitVec.toNat_ushiftRight, ← BitVec.xor_eq_zero_iff.mp h]
  omega

/-- R62 (b): the xor-shift is linear with a trivial kernel. -/
theorem xorShift_injective {k : Nat} (hk : 0 < k) : Function.Injective (xorShift k) := by
  intro x y h
  have hdiff : xorShift k (x ^^^ y) = 0 := by rw [xorShift_xor, h]; exact BitVec.xor_self
  exact BitVec.xor_eq_zero_iff.mp (eq_zero_of_xorShift_eq_zero hk hdiff)

theorem xorShift_bijective {k : Nat} (hk : 0 < k) : Function.Bijective (xorShift k) :=
  have : Finite Word := Finite.of_injective BitVec.toFin BitVec.toFin_injective
  Finite.injective_iff_bijective.mp (xorShift_injective hk)

theorem mul_bijective_of_mul_eq_one {c inverse : Word} (h : c * inverse = 1) :
    Function.Bijective (fun x : Word => x * c) :=
  IsUnit.isUnit_iff_mulRight_bijective.mp (IsUnit.of_mul_eq_one inverse h)

/-! R62: the constants of R58 are odd, so each has an inverse modulo `2^64`, written out here. -/

theorem mul_smGamma_bijective : Function.Bijective (fun x : Word => x * smGamma) :=
  mul_bijective_of_mul_eq_one (inverse := 0xf1de83e19937733d#64) (by decide)

theorem mul_firstMultiplier_bijective : Function.Bijective (fun x : Word => x * 0xbf58476d1ce4e5b9#64) :=
  mul_bijective_of_mul_eq_one (inverse := 0x96de1b173f119089#64) (by decide)

theorem mul_secondMultiplier_bijective : Function.Bijective (fun x : Word => x * 0x94d049bb133111eb#64) :=
  mul_bijective_of_mul_eq_one (inverse := 0x319642b2d24d8ec3#64) (by decide)

/-- The output map is three xor-shifts with a multiplication between each two (R58). -/
theorem smMix_eq_comp (p : Params) :
    smMix p = xorShift 31 ∘ (· * 0x94d049bb133111eb#64) ∘ xorShift p.smShift2 ∘ (· * 0xbf58476d1ce4e5b9#64) ∘
      xorShift p.smShift1 := rfl

/-- R62 (b). -/
theorem smMix_bijective {p : Params} (hp : p.wf) : Function.Bijective (smMix p) := by
  obtain ⟨⟨hshift1, -⟩, hshift2, -⟩ := hp
  rw [smMix_eq_comp]
  have hround1 := mul_firstMultiplier_bijective.comp (xorShift_bijective hshift1)
  have hround2 := mul_secondMultiplier_bijective.comp ((xorShift_bijective hshift2).comp hround1)
  exact (xorShift_bijective (by decide)).comp hround2

theorem smAdvance_bijective : Function.Bijective smAdvance := AddGroup.addRight_bijective smGamma

/-- Within one period the number of steps is determined by the word they lead to: the constant cancels. -/
theorem seedAdvance_injOn {x : Word} {m n : Nat} (hm : m < 2 ^ 64) (hn : n < 2 ^ 64)
    (h : seedAdvance x m = seedAdvance x n) : m = n := by
  rw [seedAdvance_eq, seedAdvance_eq, add_right_inj] at h
  have hcount : BitVec.ofNat 64 m = BitVec.ofNat 64 n := mul_smGamma_bijective.injective h
  rwa [← BitVec.toNat_inj, BitVec.toNat_ofNat, BitVec.toNat_ofNat, Nat.mod_eq_of_lt hm, Nat.mod_eq_of_lt hn] at hcount

/-- Every word is some number of constants away, less than a period. -/
theorem exists_seedAdvance_eq (x y : Word) : ∃ n < 2 ^ 64, seedAdvance x n = y := by
  obtain ⟨count, hcount : count * smGamma = y - x⟩ := mul_smGamma_bijective.surjective (y - x)
  refine ⟨count.toNat, count.isLt, ?_⟩
  rw [seedAdvance_eq, BitVec.ofNat_toNat, BitVec.setWidth_eq, hcount, add_sub_cancel]

/-- R62 (c): equal outputs come from equal states, and those from equal numbers of steps. -/
theorem expanderWord_injOn {p : Params} (hp : p.wf) {x : Word} {i j : Nat} (hi : i < 2 ^ 64) (hj : j < 2 ^ 64)
    (h : expanderWord p x i = expanderWord p x j) : i = j := by
  rw [← seedWord_eq_expanderWord, ← seedWord_eq_expanderWord, seedWord_eq, seedWord_eq] at h
  have hstate : seedAdvance x i = seedAdvance x j := smAdvance_bijective.injective ((smMix_bijective hp).injective h)
  exact seedAdvance_injOn hi hj hstate

/-- Settles O21: R62 (a), (b) and (c) in turn. -/
theorem splitMixLaws : Obligations.SplitMixLaws := by
  refine ⟨⟨smAdvance_bijective, fun x y => ?_⟩, fun p hp => ⟨smMix_bijective hp, fun x i j => expanderWord_injOn hp⟩⟩
  obtain ⟨n, hn, hreach⟩ := exists_seedAdvance_eq x y
  exact ⟨n, ⟨hn, hreach⟩, fun m ⟨hm, hreach'⟩ => seedAdvance_injOn hm hn (hreach'.trans hreach.symm)⟩

end Sys2Proof.Machine
end

section
/-! R70: among the first words of an expander at most one is 0, so the retry loop of R69 ends with its first draw. -/

namespace Sys2Proof.Machine

/-- R70: two words of one expander differ (R62 (c)), so the first two are not both 0. -/
theorem exists_expanderWord_ne_zero {p : Params} (hp : p.wf) {n : Nat} (hn : 2 ≤ n) (x : Word) :
    ∃ i < n, expanderWord p x i ≠ 0 := by
  by_contra hall
  push Not at hall
  have hfirst : expanderWord p x 0 = 0 := hall 0 (by omega)
  have hsecond : expanderWord p x 1 = 0 := hall 1 (by omega)
  have hsame : 0 = 1 := expanderWord_injOn hp (by decide) (by decide) (hfirst.trans hsecond.symm)
  omega

theorem seedWords_eq_map_expanderWord (p : Params) (n : Nat) (x : Word) :
    seedWords p n x = (List.range n).map (expanderWord p x) := by
  have hword : seedWord p x = expanderWord p x := funext (seedWord_eq_expanderWord p x)
  rw [seedWords, hword]

/-- The loop's test for a further draw (R69) fails as soon as one word drawn is not 0. -/
theorem seedWords_all_zero_eq_false {p : Params} {n : Nat} {x : Word} (h : ∃ i < n, expanderWord p x i ≠ 0) :
    (seedWords p n x).all (fun w => w == 0) = false := by
  obtain ⟨i, hi, hne⟩ := h
  rw [seedWords_eq_map_expanderWord, List.all_eq_false]
  exact ⟨_, List.mem_map_of_mem (List.mem_range.mpr hi), by simpa using hne⟩

theorem seedStateLoop_of_ne_zero {p : Params} {n : Nat} {x : Word} (h : ∃ i < n, expanderWord p x i ≠ 0)
    (retries : Nat) : seedStateLoop p n retries x = seedWords p n x := by
  cases retries with
  | zero => rfl
  | succ retries => simp only [seedStateLoop, seedWords_all_zero_eq_false h, Bool.false_eq_true, if_false]

/-- Settles O22: the first draw is a valid state, and the loop stops at it. -/
theorem retryLoopRunsOnce : Obligations.RetryLoopRunsOnce := by
  intro p n retries x hp hn
  have hvalid := exists_expanderWord_ne_zero hp hn x
  exact ⟨hvalid, by rw [seedStateLoop_of_ne_zero hvalid, seedWords_eq_map_expanderWord]⟩

end Sys2Proof.Machine
end

section
/-! The seeded constructors X.SEED and X.HOST, for all four classes at once (R64, R71): what each leaves is one function
of the seed word and the state, and X.HOST applies it to the word taken from HRAND. -/

namespace Sys2Proof.Machine

/-- What a seeded constructor of class `c` leaves of a state, given its seed word (R73, R77, R81, R85). -/
def seededState : GenClass → Word → State → State
  | .pair => pairSeeded
  | .arr => arrSeeded
  | .quad => quadSeeded
  | .oct => octSeeded

/-- The X.HOST command of a class (R64). -/
def hostCommand : GenClass → Instr
  | .pair => .pairHost
  | .arr => .arrHost
  | .quad => .quadHost
  | .oct => .octHost

theorem expand_new (c : GenClass) : (Pseudo.new c).expand = [hostCommand c] := by cases c <;> rfl

theorem exec_seedCommand (c : GenClass) (x : Word) (s : State) :
    exec (seedCommand c x) s = .next (seededState c x s) := by cases c <;> rfl

theorem exec_hostCommand (c : GenClass) (s : State) :
    exec (hostCommand c) s = .next (seededState c s.takeHrand.1 s.takeHrand.2) := by cases c <;> rfl

theorem setHrand_eq (s : State) (ws : List Word) : s.setHrand ws = { s with hrand := ws } := by cases s; rfl

theorem setDraws_eq (s : State) (n : Nat) : s.setDraws n = { s with draws := n } := by cases s; rfl

theorem exec_hostCommand_of_queued {s : State} {h : Word} {ws : List Word} (hqueued : s.hrand = h :: ws)
    (c : GenClass) : exec (hostCommand c) s = .next (seededState c h { s with hrand := ws }) := by
  rw [exec_hostCommand, takeHrand_cons hqueued, setHrand_eq]

theorem exec_hostCommand_of_empty {s : State} (hempty : s.hrand = []) (c : GenClass) :
    exec (hostCommand c) s =
      .next (seededState c (Config.hrandWord s.draws) { s with draws := s.draws + 1 }) := by
  rw [exec_hostCommand, takeHrand_nil hempty, setDraws_eq]

/-- Where `seeded` says what seeding class `c` leaves of every state with the parameters of `s`, it says what X.SEED and
X.HOST leave of `s`. -/
theorem seed_and_host_of_seededState_eq {c : GenClass} {s : State} {seeded : Word → State → State}
    (hseeded : ∀ x t, t.params = s.params → seededState c x t = seeded x t) :
    (∀ x, exec (seedCommand c x) s = .next (seeded x s)) ∧
    (∀ h ws, s.hrand = h :: ws → exec (hostCommand c) s = .next (seeded h { s with hrand := ws })) ∧
    (s.hrand = [] → ∃ h, exec (hostCommand c) s = .next (seeded h { s with draws := s.draws + 1 })) := by
  refine ⟨fun x => ?_, fun h ws hqueued => ?_, fun hempty => ⟨Config.hrandWord s.draws, ?_⟩⟩
  · exact (exec_seedCommand c x s).trans (congrArg _ (hseeded x s rfl))
  · exact (exec_hostCommand_of_queued hqueued c).trans (congrArg _ (hseeded h _ rfl))
  · exact (exec_hostCommand_of_empty hempty c).trans (congrArg _ (hseeded _ _ rfl))

/-! The seeded state of each class, its words those of the expander (R67). -/

theorem seededState_pair {p : Params} {t : State} (hp : t.params = p) (x : Word) :
    seededState .pair x t =
      { t with pair := { s := { s0 := expanderWord p x 0, s1 := expanderWord p x 1 }, v := true },
               response := okResponse none } := by
  simp only [seededState, pairSeeded, answer_setPair, pairOfSeed, seedWord_eq_expanderWord, hp]

theorem seededState_arr {p : Params} {t : State} (hp : t.params = p) (x : Word) :
    seededState .arr x t =
      { t with arr := { a := arrOfSeed p (smAdvance x), p := ptrMap p (expanderWord p x 0), v := true },
               response := okResponse none } := by
  simp only [seededState, arrSeeded, answer_setArr, smStep_fst, smStep_snd_eq_expanderWord, hp]

theorem seededState_quad {p : Params} {t : State} (hp : t.params = p) (x : Word) :
    seededState .quad x t =
      { t with quad := { s := { s0 := expanderWord p x 0, s1 := expanderWord p x 1,
                                s2 := expanderWord p x 2, s3 := expanderWord p x 3 }, v := true },
               response := okResponse none } := by
  simp only [seededState, quadSeeded, answer_setQuad, quadOfSeed, seedWord_eq_expanderWord, hp]

theorem seededState_oct {p : Params} {t : State} (hp : t.params = p) (x : Word) :
    seededState .oct x t =
      { t with oct := { s := { s0 := expanderWord p x 0, s1 := expanderWord p x 1, s2 := expanderWord p x 2,
                               s3 := expanderWord p x 3, s4 := expanderWord p x 4, s5 := expanderWord p x 5,
                               s6 := expanderWord p x 6, s7 := expanderWord p x 7 }, v := true },
               response := okResponse none } := by
  simp only [seededState, octSeeded, answer_setOct, octOfSeed, seedWord_eq_expanderWord, hp]

/-- R68: the default pointer map is the word's top four bits. -/
theorem ptrMap_topFour_toNat {p : Params} (hp : p.ptrMap = .topFour) (w : Word) :
    (ptrMap p w).toNat = w.toNat / 2 ^ 60 := by
  have hlt : w.toNat / 2 ^ 60 < 2 ^ 4 := by omega
  rw [ptrMap, hp]
  simp only [BitVec.toNat_setWidth, BitVec.toNat_ushiftRight, Nat.shiftRight_eq_div_pow, Nat.mod_eq_of_lt hlt]

/-- R77: the pointer takes the first word, so slot `i` holds the word after the `i`-th. -/
theorem arrGet_arrOfSeed_smAdvance (p : Params) (x : Word) (i : BitVec 4) :
    arrGet (arrOfSeed p (smAdvance x)) i = expanderWord p x (i.toNat + 1) := by
  rw [arrGet_arrOfSeed, seedWord_eq_expanderWord, expanderWord_smAdvance]

/-- Settles O24: `seededState_pair` names the words, for the seed operand and for the word from HRAND alike. -/
theorem pairSeedAndHost : Obligations.PairSeedAndHost := fun _ =>
  ⟨fun _ => rfl, rfl, seed_and_host_of_seededState_eq (c := .pair) fun x _ ht => seededState_pair ht x⟩

/-- Settles O28: the pointer map, then the words, then the two commands. -/
theorem arrSeedAndHost : Obligations.ArrSeedAndHost :=
  ⟨fun _ w hp => ptrMap_topFour_toNat hp w, fun s =>
    ⟨fun x => arrOfSeed s.params (smAdvance x), arrGet_arrOfSeed_smAdvance s.params,
      fun _ => rfl, rfl, seed_and_host_of_seededState_eq (c := .arr) fun x _ ht => seededState_arr ht x⟩⟩

/-- Settles O33: `seededState_quad` names the words, for the seed operand and for the word from HRAND alike. -/
theorem quadSeedAndHost : Obligations.QuadSeedAndHost := fun _ =>
  ⟨fun _ => rfl, rfl, seed_and_host_of_seededState_eq (c := .quad) fun x _ ht => seededState_quad ht x⟩

/-- Settles O37: `seededState_oct` names the words, for the seed operand and for the word from HRAND alike. -/
theorem octSeedAndHost : Obligations.OctSeedAndHost := fun _ =>
  ⟨fun _ => rfl, rfl, seed_and_host_of_seededState_eq (c := .oct) fun x _ ht => seededState_oct ht x⟩

end Sys2Proof.Machine
end

section
/-! Every NEXT command is the draw of its bank with a scramble of its own (R91 to R93, R97, R98, R103 to R105, R109 to
R111). -/

namespace Sys2Proof.Machine

theorem exec_pairNextP (s : State) :
    exec .pairNextP s = pairDraw .pairNextP (fun w => w.s0 + w.s1) s := rfl
theorem exec_pairNextPP (s : State) :
    exec .pairNextPP s = pairDraw .pairNextPP (fun w => rotl64 (w.s0 + w.s1) 17 + w.s0) s := rfl
theorem exec_pairNextSS (s : State) :
    exec .pairNextSS s = pairDraw .pairNextSS (fun w => rotl64 (w.s0 * 5) 7 * 9) s := rfl
theorem exec_arrNextSS (s : State) :
    exec .arrNextSS s = arrDraw .arrNextSS (fun w => rotl64 (w * 5) 7 * 9) s := rfl
theorem exec_arrNextS (s : State) :
    exec .arrNextS s = arrDraw .arrNextS (fun w => w * 0x9e3779b97f4a7c13#64) s := rfl
theorem exec_quadNextP (s : State) :
    exec .quadNextP s = quadDraw .quadNextP (fun w => w.s0 + w.s3) s := rfl
theorem exec_quadNextPP (s : State) :
    exec .quadNextPP s = quadDraw .quadNextPP (fun w => rotl64 (w.s0 + w.s3) 23 + w.s0) s := rfl
theorem exec_quadNextSS (s : State) :
    exec .quadNextSS s = quadDraw .quadNextSS (fun w => rotl64 (w.s1 * 5) 7 * 9) s := rfl
theorem exec_octNextP (s : State) :
    exec .octNextP s = octDraw .octNextP (fun w => w.s0 + w.s2) s := rfl
theorem exec_octNextPP (s : State) :
    exec .octNextPP s = octDraw .octNextPP (fun w => rotl64 (w.s0 + w.s2) 17 + w.s2) s := rfl
theorem exec_octNextSS (s : State) :
    exec .octNextSS s = octDraw .octNextSS (fun w => rotl64 (w.s1 * 5) 7 * 9) s := rfl

/-- The draws of the four banks are all there is behind `isDraw`. -/
theorem exec_draw_cases {i : Instr} (hi : isDraw i = true) :
    (unitOf i = .pair ∧ ∃ f, ∀ s, exec i s = pairDraw i.opcode f s) ∨
    (unitOf i = .arr ∧ ∃ f, ∀ s, exec i s = arrDraw i.opcode f s) ∨
    (unitOf i = .quad ∧ ∃ f, ∀ s, exec i s = quadDraw i.opcode f s) ∨
    (unitOf i = .oct ∧ ∃ f, ∀ s, exec i s = octDraw i.opcode f s) := by
  cases i with
  | pairNextP => exact .inl ⟨rfl, _, exec_pairNextP⟩
  | pairNextPP => exact .inl ⟨rfl, _, exec_pairNextPP⟩
  | pairNextSS => exact .inl ⟨rfl, _, exec_pairNextSS⟩
  | arrNextSS => exact .inr (.inl ⟨rfl, _, exec_arrNextSS⟩)
  | arrNextS => exact .inr (.inl ⟨rfl, _, exec_arrNextS⟩)
  | quadNextP => exact .inr (.inr (.inl ⟨rfl, _, exec_quadNextP⟩))
  | quadNextPP => exact .inr (.inr (.inl ⟨rfl, _, exec_quadNextPP⟩))
  | quadNextSS => exact .inr (.inr (.inl ⟨rfl, _, exec_quadNextSS⟩))
  | octNextP => exact .inr (.inr (.inr ⟨rfl, _, exec_octNextP⟩))
  | octNextPP => exact .inr (.inr (.inr ⟨rfl, _, exec_octNextPP⟩))
  | octNextSS => exact .inr (.inr (.inr ⟨rfl, _, exec_octNextSS⟩))
  | _ => cases hi

end Sys2Proof.Machine
end

section
/-! R89: after a seeded constructor nothing of the earlier state shows, neither in the bank nor in what its NEXT
commands answer. -/

namespace Sys2Proof.Machine

/-- Both outcomes are next states that hold the same in unit `u` and answer the same. -/
def agreeOn (u : UnitName) (a b : Result) : Prop :=
  ∃ s t, a = .next s ∧ b = .next t ∧ s.response = t.response ∧ sameUnit u s t

theorem agreeOn_raise {u : UnitName} {s t : State} (h : sameUnit u s t) (c : Cause) (cw : CmdWord) :
    agreeOn u (.next (s.raise c cw)) (.next (t.raise c cw)) := by
  refine ⟨_, _, rfl, rfl, by simp only [State.raise_response], ?_⟩
  cases u <;> simp_all [sameUnit]

/-- The valid-bit check (R131) keeps agreement: with the bit 0 the same fault, with the bit 1 the rest of the command. -/
theorem agreeOn_whenConstructed {u : UnitName} {s t : State} (h : sameUnit u s t) (v : Bool) (o : Opcode)
    {a b : Result} (hrest : agreeOn u a b) : agreeOn u (s.whenConstructed v o a) (t.whenConstructed v o b) := by
  cases v with
  | false => exact agreeOn_raise h _ _
  | true => exact hrest

theorem pairDraw_agreeOn {s t : State} (h : sameUnit .pair s t) (o : Opcode) (f : PairWords → Word) :
    agreeOn .pair (pairDraw o f s) (pairDraw o f t) := by
  have hbank : s.pair = t.pair := h
  rw [pairDraw, pairDraw, hbank]
  exact agreeOn_whenConstructed h _ _ ⟨_, _, rfl, rfl, by simp, by simp [sameUnit]⟩

theorem arrDraw_agreeOn {s t : State} (h : sameUnit .arr s t) (o : Opcode) (f : Word → Word) :
    agreeOn .arr (arrDraw o f s) (arrDraw o f t) := by
  have hbank : s.arr = t.arr := h
  rw [arrDraw, arrDraw, hbank]
  exact agreeOn_whenConstructed h _ _ ⟨_, _, rfl, rfl, by simp, by simp [sameUnit]⟩

theorem quadDraw_agreeOn {s t : State} (h : sameUnit .quad s t) (o : Opcode) (f : QuadWords → Word) :
    agreeOn .quad (quadDraw o f s) (quadDraw o f t) := by
  have hbank : s.quad = t.quad := h
  rw [quadDraw, quadDraw, hbank]
  exact agreeOn_whenConstructed h _ _ ⟨_, _, rfl, rfl, by simp, by simp [sameUnit]⟩

theorem octDraw_agreeOn {s t : State} (h : sameUnit .oct s t) (o : Opcode) (f : OctWords → Word) :
    agreeOn .oct (octDraw o f s) (octDraw o f t) := by
  have hbank : s.oct = t.oct := h
  rw [octDraw, octDraw, hbank]
  exact agreeOn_whenConstructed h _ _ ⟨_, _, rfl, rfl, by simp, by simp [sameUnit]⟩

/-- A NEXT command reads its own bank only, and writes there what that bank alone determines (R94). -/
theorem exec_draw_agreeOn {i : Instr} (hi : isDraw i = true) {s t : State} (h : sameUnit (unitOf i) s t) :
    agreeOn (unitOf i) (exec i s) (exec i t) := by
  obtain ⟨hunit, f, hexec⟩ | ⟨hunit, f, hexec⟩ | ⟨hunit, f, hexec⟩ | ⟨hunit, f, hexec⟩ := exec_draw_cases hi <;>
    rw [hunit] at h ⊢ <;> rw [hexec, hexec]
  · exact pairDraw_agreeOn h _ f
  · exact arrDraw_agreeOn h _ f
  · exact quadDraw_agreeOn h _ f
  · exact octDraw_agreeOn h _ f

/-- Seeding a class determines its bank from the parameters and the seed word. -/
theorem seededState_agreeOn (c : GenClass) (x : Word) {s t : State} (hp : s.params = t.params) :
    agreeOn (classUnit c) (.next (seededState c x s)) (.next (seededState c x t)) := by
  refine ⟨_, _, rfl, rfl, ?_, ?_⟩
  · cases c <;> simp [seededState, pairSeeded, arrSeeded, quadSeeded, octSeeded]
  · cases c <;> simp [seededState, pairSeeded, arrSeeded, quadSeeded, octSeeded, classUnit, sameUnit, hp]

theorem runCommands_cons_of_next {i : Instr} {s s' : State} (h : exec i s = .next s') (is : List Instr) :
    runCommands (i :: is) s = ((runCommands is s').1, s'.response :: (runCommands is s').2) := by
  simp only [runCommands, h]

/-- Two runs show the same of unit `u`: the responses, and what the unit holds at the end. -/
def runsAgree (u : UnitName) (a b : State × List (Option Response)) : Prop := a.2 = b.2 ∧ sameUnit u a.1 b.1

theorem runsAgree_cons {u : UnitName} {i : Instr} {is : List Instr} {s t : State}
    (hfirst : agreeOn u (exec i s) (exec i t))
    (hrest : ∀ s' t', sameUnit u s' t' → runsAgree u (runCommands is s') (runCommands is t')) :
    runsAgree u (runCommands (i :: is) s) (runCommands (i :: is) t) := by
  obtain ⟨s', t', hs, ht, hresponse, hunit⟩ := hfirst
  obtain ⟨hresponses, hlast⟩ := hrest s' t' hunit
  rw [runCommands_cons_of_next hs, runCommands_cons_of_next ht]
  exact ⟨by rw [hresponse, hresponses], hlast⟩

theorem runsAgree_of_draws {u : UnitName} {is : List Instr} (his : ∀ i ∈ is, isDraw i = true ∧ unitOf i = u) :
    ∀ s t, sameUnit u s t → runsAgree u (runCommands is s) (runCommands is t) := by
  induction is with
  | nil => exact fun s t h => ⟨rfl, h⟩
  | cons i is ih =>
    intro s t h
    obtain ⟨⟨hdraw, rfl⟩, htail⟩ := List.forall_mem_cons.mp his
    exact runsAgree_cons (exec_draw_agreeOn hdraw h) (ih htail)

/-- Settles O44: the constructor makes the two banks equal, and the NEXT commands keep them so. -/
theorem seededStreamsAreDeterministic : Obligations.SeededStreamsAreDeterministic := by
  intro c x is s t hp his
  refine ⟨runsAgree_cons ?_ (runsAgree_of_draws his), fun ws vs hs ht => ?_⟩
  · rw [exec_seedCommand, exec_seedCommand]
    exact seededState_agreeOn c x hp
  · rw [expand_new, List.singleton_append]
    refine runsAgree_cons ?_ (runsAgree_of_draws his)
    rw [exec_hostCommand_of_queued hs, exec_hostCommand_of_queued ht]
    exact seededState_agreeOn c x hp

end Sys2Proof.Machine
end

section
/-! The raw constructors X.INIT (R72, R76, R80, R84): all-zero words fault, any others are loaded. -/

namespace Sys2Proof.Machine

theorem pairValid_eq_true (w : PairWords) : pairValid w = true ↔ w.s0 ≠ 0 ∨ w.s1 ≠ 0 := by
  rw [← Bool.not_eq_false, pairValid_eq_false, not_and_or]

theorem quadValid_eq_true (w : QuadWords) :
    quadValid w = true ↔ w.s0 ≠ 0 ∨ w.s1 ≠ 0 ∨ w.s2 ≠ 0 ∨ w.s3 ≠ 0 := by
  rw [← Bool.not_eq_false, quadValid_eq_false]
  simp only [not_and_or, ne_eq]

theorem octValid_eq_true (w : OctWords) :
    octValid w = true ↔
      w.s0 ≠ 0 ∨ w.s1 ≠ 0 ∨ w.s2 ≠ 0 ∨ w.s3 ≠ 0 ∨ w.s4 ≠ 0 ∨ w.s5 ≠ 0 ∨ w.s6 ≠ 0 ∨ w.s7 ≠ 0 := by
  rw [← Bool.not_eq_false, octValid_eq_false]
  simp only [not_and_or, ne_eq]

theorem arrValid_eq_true (a : ArrWords) : arrValid a = true ↔ ∃ i : BitVec 4, arrGet a i ≠ 0 := by
  rw [← Bool.not_eq_false, arrValid_eq_false, not_forall]

theorem exec_pairInit (w : PairWords) (s : State) : exec (.pairInit w) s = execPairInit w s := rfl
theorem exec_arrInit (p : Word) (a : ArrWords) (s : State) : exec (.arrInit p a) s = execArrInit p a s := rfl
theorem exec_quadInit (w : QuadWords) (s : State) : exec (.quadInit w) s = execQuadInit w s := rfl
theorem exec_octInit (w : OctWords) (s : State) : exec (.octInit w) s = execOctInit w s := rfl

/-- Settles O23: `pairValid` decides between the fault and loading. -/
theorem pairInitLoads : Obligations.PairInitLoads := by
  intro w s
  refine ⟨rfl, fun hzero => ?_, fun hne => ?_⟩
  · rw [exec_pairInit, execPairInit, if_neg (Bool.eq_false_iff.mp ((pairValid_eq_false w).mpr hzero)), raise_eq]
    rfl
  · rw [exec_pairInit, execPairInit, if_pos ((pairValid_eq_true w).mpr hne), answer_setPair]

/-- Settles O27: the pointer check decides first, `arrValid` after it (R140). -/
theorem arrInitLoads : Obligations.ArrInitLoads := by
  intro p a s
  have haccepted (hp : p.toNat < 16) : pointer? p = some (BitVec.ofNat 4 p.toNat) :=
    (pointer?_eq_some p _).mpr ⟨hp, (BitVec.ofNat_toNat 4 p).symm⟩
  refine ⟨rfl, fun hp => ?_, fun hp hzero => ?_, fun hp hne => ?_⟩
  · simp only [exec_arrInit, execArrInit, (pointer?_eq_none p).mpr hp, raise_eq]
    rfl
  · simp only [exec_arrInit, execArrInit, haccepted hp, (arrValid_eq_false a).mpr hzero, raise_eq]
    rfl
  · simp only [exec_arrInit, execArrInit, haccepted hp, (arrValid_eq_true a).mpr hne, if_true, answer_setArr]

/-- Settles O32: `quadValid` decides between the fault and loading. -/
theorem quadInitLoads : Obligations.QuadInitLoads := by
  intro w s
  refine ⟨rfl, fun hzero => ?_, fun hne => ?_⟩
  · rw [exec_quadInit, execQuadInit, if_neg (Bool.eq_false_iff.mp ((quadValid_eq_false w).mpr hzero)), raise_eq]
    rfl
  · rw [exec_quadInit, execQuadInit, if_pos ((quadValid_eq_true w).mpr hne), answer_setQuad]

/-- Settles O36: `octValid` decides between the fault and loading. -/
theorem octInitLoads : Obligations.OctInitLoads := by
  intro w s
  refine ⟨rfl, fun hzero => ?_, fun hne => ?_⟩
  · rw [exec_octInit, execOctInit, if_neg (Bool.eq_false_iff.mp ((octValid_eq_false w).mpr hzero)), raise_eq]
    rfl
  · rw [exec_octInit, execOctInit, if_pos ((octValid_eq_true w).mpr hne), answer_setOct]

end Sys2Proof.Machine
end

section
/-! The comparisons X.EQ (R75, R79, R83, R87): the valid bit decides between R131's fault and the answer. -/

namespace Sys2Proof.Machine

/-- Arrays that agree at every index are equal. -/
theorem eq_iff_forall_arrGet {a b : ArrWords} : a = b ↔ ∀ i : BitVec 4, arrGet a i = arrGet b i := by
  refine ⟨fun h i => by rw [h], fun h => Vector.ext fun i hi => ?_⟩
  have hindex : (BitVec.ofNat 4 i).toNat = i := Nat.mod_eq_of_lt hi
  simpa only [arrGet, hindex] using h (BitVec.ofNat 4 i)

/-- R79: ARR.EQ's comparison is that of the sixteen slots. -/
theorem boolWord_toList_beq (a b : ArrWords) : boolWord (a.toList == b.toList) = if a = b then 1 else 0 := by
  simp only [boolWord, beq_iff_eq, Vector.toList_inj]

theorem exec_pairEq (w : PairWords) (s : State) : exec (.pairEq w) s = execPairEq w s := rfl
theorem exec_arrEq (a : ArrWords) (s : State) : exec (.arrEq a) s = execArrEq a s := rfl
theorem exec_quadEq (w : QuadWords) (s : State) : exec (.quadEq w) s = execQuadEq w s := rfl
theorem exec_octEq (w : OctWords) (s : State) : exec (.octEq w) s = execOctEq w s := rfl

/-- Settles O26: equality of the banks is equality of all their words. -/
theorem pairEqCompares : Obligations.PairEqCompares := by
  intro w s
  refine ⟨rfl, fun hv => ?_, fun hv => ?_⟩
  · rw [exec_pairEq, execPairEq, hv, whenConstructed_false, raise_eq]
    rfl
  · rw [exec_pairEq, execPairEq, hv, whenConstructed_true, answer_eq, boolWord_beq]

/-- What ARR.EQ answers on a constructed bank, whatever the pointer. -/
theorem exec_arrEq_of_constructed {s : State} (hv : s.arr.v = true) (a : ArrWords) :
    exec (.arrEq a) s = .next { s with response := okResponse (some (if s.arr.a = a then 1 else 0)) } := by
  rw [exec_arrEq, execArrEq, hv, whenConstructed_true, answer_eq, boolWord_toList_beq]

/-- Settles O30: equality of the arrays is equality at every index. -/
theorem arrEqCompares : Obligations.ArrEqCompares := by
  intro a s
  refine ⟨rfl, fun hv => ?_, fun hv hequal => ?_, fun hv hunequal => ?_⟩
  · rw [exec_arrEq, execArrEq, hv, whenConstructed_false, raise_eq]
    rfl
  · rw [exec_arrEq_of_constructed hv, if_pos (eq_iff_forall_arrGet.mpr hequal)]
  · have hne : s.arr.a ≠ a := fun h => not_forall.mpr hunequal (eq_iff_forall_arrGet.mp h)
    rw [exec_arrEq_of_constructed hv, if_neg hne]

/-- Settles O35: equality of the banks is equality of all their words. -/
theorem quadEqCompares : Obligations.QuadEqCompares := by
  intro w s
  refine ⟨rfl, fun hv => ?_, fun hv => ?_⟩
  · rw [exec_quadEq, execQuadEq, hv, whenConstructed_false, raise_eq]
    rfl
  · rw [exec_quadEq, execQuadEq, hv, whenConstructed_true, answer_eq, boolWord_beq]

/-- Settles O39: equality of the banks is equality of all their words. -/
theorem octEqCompares : Obligations.OctEqCompares := by
  intro w s
  refine ⟨rfl, fun hv => ?_, fun hv => ?_⟩
  · rw [exec_octEq, execOctEq, hv, whenConstructed_false, raise_eq]
    rfl
  · rw [exec_octEq, execOctEq, hv, whenConstructed_true, answer_eq, boolWord_beq]

end Sys2Proof.Machine
end

section
/-! PAIR.NEXT (R90 to R93): what a draw of PAIR does, said once for every scramble, with the rotations core's own. -/

namespace Sys2Proof.Machine

theorem pairUpdate_eq (w : PairWords) :
    pairUpdate w =
      { s0 := w.s0.rotateLeft 24 ^^^ (w.s0 ^^^ w.s1) ^^^ ((w.s0 ^^^ w.s1) <<< 16),
        s1 := (w.s0 ^^^ w.s1).rotateLeft 37 } := by
  rw [pairUpdate, rotl64_eq_rotateLeft _ 24 (by decide), rotl64_eq_rotateLeft _ 37 (by decide)]

theorem pairDraw_of_unconstructed {s : State} (hv : s.pair.v = false) (o : Opcode) (f : PairWords → Word) :
    pairDraw o f s = .next (faultEntry s 0x11#8 o.word) := by
  rw [pairDraw, hv, whenConstructed_false, raise_eq, Cause.code]

/-- R94: the scramble reads the words before the update. -/
theorem pairDraw_of_constructed {s : State} (hv : s.pair.v = true) (o : Opcode) (f : PairWords → Word) :
    pairDraw o f s =
      .next { s with pair := { s := pairUpdate s.pair.s, v := true }, response := okResponse (some (f s.pair.s)) } := by
  simp only [pairDraw, hv, whenConstructed_true, answer_setPair]

/-- Settles O25: the valid bit decides between the fault and the draw, and `pairUpdate_eq` names the words left. -/
theorem pairNextDraws : Obligations.PairNextDraws := by
  intro s
  refine ⟨⟨rfl, rfl, rfl⟩, fun hv => ⟨?_, ?_, ?_⟩, fun hv => ⟨?_, ?_, ?_⟩⟩
  · rw [exec_pairNextP, pairDraw_of_unconstructed hv, Opcode.word]
  · rw [exec_pairNextPP, pairDraw_of_unconstructed hv, Opcode.word]
  · rw [exec_pairNextSS, pairDraw_of_unconstructed hv, Opcode.word]
  · rw [exec_pairNextP, pairDraw_of_constructed hv, pairUpdate_eq]
  · rw [exec_pairNextPP, pairDraw_of_constructed hv, pairUpdate_eq, rotl64_eq_rotateLeft _ 17 (by decide)]
  · rw [exec_pairNextSS, pairDraw_of_constructed hv, pairUpdate_eq, rotl64_eq_rotateLeft _ 7 (by decide)]

end Sys2Proof.Machine
end

section
/-! ARR.NEXT (R96 to R98): what a draw of ARR does, said once for both scrambles, with the rotations core's own. -/

namespace Sys2Proof.Machine

theorem arrWord_eq (b : ArrBank) : arrWord b = arrGet b.a (b.p + 1) := rfl

/-- R96: the pointer advances and the valid bit stays, whatever the words. -/
theorem arrUpdate_eq (b : ArrBank) : arrUpdate b = { a := (arrUpdate b).a, p := b.p + 1, v := b.v } := rfl

/-- R96: the two indices differ, so neither write hides the other. -/
theorem arrGet_arrUpdate (b : ArrBank) (i : BitVec 4) :
    arrGet (arrUpdate b).a i =
      if i = b.p then
        (arrGet b.a (b.p + 1)).rotateLeft 25 ^^^ (arrGet b.a b.p ^^^ arrGet b.a (b.p + 1)) ^^^
          ((arrGet b.a b.p ^^^ arrGet b.a (b.p + 1)) <<< 27)
      else if i = b.p + 1 then (arrGet b.a b.p ^^^ arrGet b.a (b.p + 1)).rotateLeft 36
      else arrGet b.a i := by
  simp only [arrUpdate, arrNextPtr, arrGet_arrSet, rotl64_eq_rotateLeft _ 25 (by decide),
    rotl64_eq_rotateLeft _ 36 (by decide)]
  by_cases hold : i = b.p
  · have hother : i ≠ b.p + 1 := hold ▸ (add_one_ne_self i).symm
    rw [if_neg hother, if_pos hold, if_pos hold]
  · simp only [if_neg hold]

theorem arrDraw_of_unconstructed {s : State} (hv : s.arr.v = false) (o : Opcode) (f : Word → Word) :
    arrDraw o f s = .next (faultEntry s 0x11#8 o.word) := by
  rw [arrDraw, hv, whenConstructed_false, raise_eq, Cause.code]

/-- R97, R98: the scramble reads the word at the advanced pointer, before the update. -/
theorem arrDraw_of_constructed {s : State} (hv : s.arr.v = true) (o : Opcode) (f : Word → Word) :
    arrDraw o f s =
      .next { s with arr := { a := (arrUpdate s.arr).a, p := s.arr.p + 1, v := true },
                     response := okResponse (some (f (arrGet s.arr.a (s.arr.p + 1)))) } := by
  rw [arrDraw, hv, whenConstructed_true, answer_setArr, arrWord_eq, arrUpdate_eq, hv]

/-- Settles O29: the valid bit decides between the fault and the draw, and `arrGet_arrUpdate` names the words left. -/
theorem arrNextDraws : Obligations.ArrNextDraws := by
  intro s
  refine ⟨⟨rfl, rfl⟩, fun hv => ⟨?_, ?_⟩, fun hv => ⟨(arrUpdate s.arr).a, arrGet_arrUpdate s.arr, ?_, ?_⟩⟩
  · rw [exec_arrNextSS, arrDraw_of_unconstructed hv, Opcode.word]
  · rw [exec_arrNextS, arrDraw_of_unconstructed hv, Opcode.word]
  · rw [exec_arrNextSS, arrDraw_of_constructed hv, rotl64_eq_rotateLeft _ 7 (by decide)]
  · rw [exec_arrNextS, arrDraw_of_constructed hv]

end Sys2Proof.Machine
end

section
/-! QUAD.NEXT (R102 to R105): what a draw of QUAD does, said once for every scramble, with the rotations core's own. -/

namespace Sys2Proof.Machine

theorem quadUpdate_eq (w : QuadWords) :
    quadUpdate w =
      { s0 := w.s0 ^^^ w.s3 ^^^ w.s1, s1 := w.s1 ^^^ w.s2 ^^^ w.s0, s2 := w.s2 ^^^ w.s0 ^^^ (w.s1 <<< 17),
        s3 := (w.s3 ^^^ w.s1).rotateLeft 45 } := by
  rw [quadUpdate, rotl64_eq_rotateLeft _ 45 (by decide)]

theorem quadDraw_of_unconstructed {s : State} (hv : s.quad.v = false) (o : Opcode) (f : QuadWords → Word) :
    quadDraw o f s = .next (faultEntry s 0x11#8 o.word) := by
  rw [quadDraw, hv, whenConstructed_false, raise_eq, Cause.code]

/-- R106: the scramble reads the words before the update. -/
theorem quadDraw_of_constructed {s : State} (hv : s.quad.v = true) (o : Opcode) (f : QuadWords → Word) :
    quadDraw o f s =
      .next { s with quad := { s := quadUpdate s.quad.s, v := true }, response := okResponse (some (f s.quad.s)) } := by
  simp only [quadDraw, hv, whenConstructed_true, answer_setQuad]

/-- Settles O34: the valid bit decides between the fault and the draw, and `quadUpdate_eq` names the words left. -/
theorem quadNextDraws : Obligations.QuadNextDraws := by
  intro s
  refine ⟨⟨rfl, rfl, rfl⟩, fun hv => ⟨?_, ?_, ?_⟩, fun hv => ⟨?_, ?_, ?_⟩⟩
  · rw [exec_quadNextP, quadDraw_of_unconstructed hv, Opcode.word]
  · rw [exec_quadNextPP, quadDraw_of_unconstructed hv, Opcode.word]
  · rw [exec_quadNextSS, quadDraw_of_unconstructed hv, Opcode.word]
  · rw [exec_quadNextP, quadDraw_of_constructed hv, quadUpdate_eq]
  · rw [exec_quadNextPP, quadDraw_of_constructed hv, quadUpdate_eq, rotl64_eq_rotateLeft _ 23 (by decide)]
  · rw [exec_quadNextSS, quadDraw_of_constructed hv, quadUpdate_eq, rotl64_eq_rotateLeft _ 7 (by decide)]

end Sys2Proof.Machine
end

section
/-! The source's assignments of the quad and octet updates against the closed forms (R102, R108). -/

namespace Sys2Proof.Machine

/-- `s1` and `s0` take in `s2` and `s3` after those took in old words: the source groups these sums to the right, the
closed form to the left. -/
theorem quadUpdateSeq_eq_quadUpdate (w : QuadWords) : quadUpdateSeq w = quadUpdate w := by
  simp only [quadUpdateSeq, quadUpdate, BitVec.xor_assoc]

/-- `s1`, `s4` and `s6` take in `s2`, `s5` and `s7` after those took in old words: the same regrouping. -/
theorem octUpdateSeq_eq_octUpdate (w : OctWords) : octUpdateSeq w = octUpdate w := by
  simp only [octUpdateSeq, octUpdate, BitVec.xor_assoc]

/-- Settles O40. -/
theorem sequentialFormsAgree : Obligations.SequentialFormsAgree :=
  ⟨quadUpdateSeq_eq_quadUpdate, octUpdateSeq_eq_octUpdate⟩

end Sys2Proof.Machine
end

section
/-! OCT.NEXT (R108 to R111): what a draw of OCT does, said once for every scramble, with the rotations core's own. -/

namespace Sys2Proof.Machine

theorem octUpdate_eq (w : OctWords) :
    octUpdate w =
      { s0 := w.s0 ^^^ w.s6, s1 := w.s1 ^^^ w.s2 ^^^ w.s0, s2 := w.s2 ^^^ w.s0, s3 := w.s3 ^^^ w.s4,
        s4 := w.s4 ^^^ w.s5 ^^^ w.s1, s5 := w.s5 ^^^ w.s1, s6 := w.s6 ^^^ w.s7 ^^^ w.s3 ^^^ (w.s1 <<< 11),
        s7 := (w.s7 ^^^ w.s3).rotateLeft 21 } := by
  rw [octUpdate, rotl64_eq_rotateLeft _ 21 (by decide)]

theorem octDraw_of_unconstructed {s : State} (hv : s.oct.v = false) (o : Opcode) (f : OctWords → Word) :
    octDraw o f s = .next (faultEntry s 0x11#8 o.word) := by
  rw [octDraw, hv, whenConstructed_false, raise_eq, Cause.code]

/-- R112: the scramble reads the words before the update. -/
theorem octDraw_of_constructed {s : State} (hv : s.oct.v = true) (o : Opcode) (f : OctWords → Word) :
    octDraw o f s =
      .next { s with oct := { s := octUpdate s.oct.s, v := true }, response := okResponse (some (f s.oct.s)) } := by
  simp only [octDraw, hv, whenConstructed_true, answer_setOct]

/-- Settles O38: the valid bit decides between the fault and the draw, and `octUpdate_eq` names the words left. -/
theorem octNextDraws : Obligations.OctNextDraws := by
  intro s
  refine ⟨⟨rfl, rfl, rfl⟩, fun hv => ⟨?_, ?_, ?_⟩, fun hv => ⟨?_, ?_, ?_⟩⟩
  · rw [exec_octNextP, octDraw_of_unconstructed hv, Opcode.word]
  · rw [exec_octNextPP, octDraw_of_unconstructed hv, Opcode.word]
  · rw [exec_octNextSS, octDraw_of_unconstructed hv, Opcode.word]
  · rw [exec_octNextP, octDraw_of_constructed hv, octUpdate_eq]
  · rw [exec_octNextPP, octDraw_of_constructed hv, octUpdate_eq, rotl64_eq_rotateLeft _ 17 (by decide)]
  · rw [exec_octNextSS, octDraw_of_constructed hv, octUpdate_eq, rotl64_eq_rotateLeft _ 7 (by decide)]

end Sys2Proof.Machine
end

section
/-! ENT.INIT (R115): the operand as a signed number. -/

namespace Sys2Proof.Machine

/-- A positive signed word fits the 63 bits of `ENT.D`. -/
theorem toNat_setWidth_of_toInt_pos {w : Word} (hpos : 0 < w.toInt) : ((w.setWidth 63).toNat : Int) = w.toInt := by
  have hnonneg : 2 * w.toNat < 2 ^ 64 := BitVec.toInt_pos_iff.mp hpos.le
  have hfits : w.toNat < 2 ^ 63 := by omega
  rw [BitVec.toInt_eq_toNat_of_lt hnonneg, BitVec.toNat_setWidth, Nat.mod_eq_of_lt hfits]

theorem exec_entInit (x : Word) (s : State) : exec (.entInit x) s = execEntInit x s := rfl

theorem execEntInit_of_toInt_nonpos {x : Word} (hx : x.toInt ≤ 0) (s : State) :
    execEntInit x s = .next (s.raise .invalidDomain Opcode.entInit.word) := by
  simp only [execEntInit, (domain?_eq_none x).mpr hx]

theorem execEntInit_of_toInt_pos {x : Word} (hx : 0 < x.toInt) (s : State) :
    execEntInit x s = .next ((s.setEnt { d := x.setWidth 63, t := [], n := 0, v := true }).answer none) := by
  simp only [execEntInit, (domain?_eq_some x _).mpr ⟨hx, rfl⟩]

/-- Settles O45: `domain?` decides between the fault and the empty table, and keeps the value of a positive operand. -/
theorem entInitStartsEmpty : Obligations.EntInitStartsEmpty := by
  intro x s
  refine ⟨rfl, fun hx => ?_, fun hx => ⟨x.setWidth 63, toNat_setWidth_of_toInt_pos hx, ?_⟩⟩
  · rw [exec_entInit, execEntInit_of_toInt_nonpos hx, raise_eq, Cause.code, Opcode.word]
  · rw [exec_entInit, execEntInit_of_toInt_pos hx, answer_setEnt]

end Sys2Proof.Machine
end

section
/-! ENT.ADD (R117, R128, R129): one equation per outcome, in the order of the checks. -/

namespace Sys2Proof.Machine

/-- What an accepted ENT.ADD leaves (R117): one more observation of the key, and OK without a result. -/
def entAdded (s : State) (v : Word) : State :=
  (s.setEnt { s.ent with t := tableBump s.ent.t v, n := s.ent.n + 1 }).answer none

theorem entAdded_eq (s : State) (v : Word) :
    entAdded s v =
      { s with ent := { s.ent with t := tableBump s.ent.t v, n := s.ent.n + 1 }, response := okResponse none } :=
  answer_setEnt _ _ _

theorem tableFullFor_iff (p : Params) (t : Table) (v : Word) :
    tableFullFor p t v = true ↔ tableHas t v = false ∧ p.entCapacity = some t.length := by
  simp only [tableFullFor, Bool.and_eq_true, Bool.not_eq_true', beq_iff_eq]

theorem eq_allOnes_iff (n : Word) : n = BitVec.allOnes 64 ↔ n.toNat = 2 ^ 64 - 1 := by
  rw [← BitVec.toNat_inj, BitVec.toNat_allOnes]

theorem exec_entAdd (v : Word) (s : State) : exec (.entAdd v) s = execEntAdd v s := rfl

theorem execEntAdd_of_unconstructed {s : State} (hv : s.ent.v = false) (v : Word) :
    execEntAdd v s = .next (s.raise .notConstructed Opcode.entAdd.word) := by
  rw [execEntAdd, hv, whenConstructed_false]

theorem execEntAdd_of_full {s : State} {v : Word} (hv : s.ent.v = true)
    (hfull : tableFullFor s.params s.ent.t v = true) :
    execEntAdd v s = .next (s.raise .tableFull Opcode.entAdd.word) := by
  rw [execEntAdd, hv, whenConstructed_true, if_pos hfull]

theorem execEntAdd_of_overflow {s : State} {v : Word} (hv : s.ent.v = true)
    (hroom : ¬tableFullFor s.params s.ent.t v = true) (hn : s.ent.n = BitVec.allOnes 64) :
    execEntAdd v s = .next (s.raise .counterOverflow Opcode.entAdd.word) := by
  rw [execEntAdd, hv, whenConstructed_true, if_neg hroom, if_pos hn]

theorem execEntAdd_of_accepted {s : State} {v : Word} (hv : s.ent.v = true)
    (hroom : ¬tableFullFor s.params s.ent.t v = true) (hn : s.ent.n ≠ BitVec.allOnes 64) :
    execEntAdd v s = .next (entAdded s v) := by
  rw [execEntAdd, hv, whenConstructed_true, if_neg hroom, if_neg hn, entAdded]

/-- ENT.ADD records the observation or faults. -/
theorem execEntAdd_cases (v : Word) (s : State) :
    execEntAdd v s = .next (entAdded s v) ∨ ∃ c, execEntAdd v s = .next (s.raise c Opcode.entAdd.word) := by
  cases hv : s.ent.v with
  | false => exact .inr ⟨_, execEntAdd_of_unconstructed hv v⟩
  | true =>
    by_cases hfull : tableFullFor s.params s.ent.t v = true
    · exact .inr ⟨_, execEntAdd_of_full hv hfull⟩
    · by_cases hn : s.ent.n = BitVec.allOnes 64
      · exact .inr ⟨_, execEntAdd_of_overflow hv hfull hn⟩
      · exact .inl (execEntAdd_of_accepted hv hfull hn)

/-- Settles O46: the new table is `tableBump` of the old one, whose laws Laws/Ops.lean states. -/
theorem entAddCounts : Obligations.EntAddCounts := by
  intro x s full
  have hfull_iff : tableFullFor s.params s.ent.t x = true ↔ full := tableFullFor_iff _ _ _
  refine ⟨rfl, fun hv => ?_, fun hv hfull => ?_, fun hv hroom hn => ?_, fun hv hroom hn hsorted =>
    ⟨tableBump s.ent.t x, ?_, tableBump_sorted x hsorted, tableHas_tableBump s.ent.t x,
      tableCount_tableBump hsorted x, length_tableBump x hsorted⟩⟩
  · rw [exec_entAdd, execEntAdd_of_unconstructed hv, raise_eq, Cause.code, Opcode.word]
  · rw [exec_entAdd, execEntAdd_of_full hv (hfull_iff.mpr hfull), raise_eq, Cause.code, Opcode.word]
  · rw [exec_entAdd, execEntAdd_of_overflow hv (mt hfull_iff.mp hroom) ((eq_allOnes_iff _).mpr hn), raise_eq,
      Cause.code, Opcode.word]
  · rw [exec_entAdd, execEntAdd_of_accepted hv (mt hfull_iff.mp hroom) (mt (eq_allOnes_iff _).mp hn), entAdded_eq]

end Sys2Proof.Machine
end

section
/-! ENT.ENTROPY and ENT.EFFICIENCY (R119, R122, R123, R124): the shape both share, one equation per outcome. -/

namespace Sys2Proof.Machine

theorem exec_entEntropy (s : State) :
    exec .entEntropy s = entScore .entEntropy (entropyWord s.params) s := rfl
theorem exec_entEfficiency (s : State) :
    exec .entEfficiency s = entScore .entEfficiency (efficiencyWord s.params) s := rfl

theorem entScore_of_unconstructed {s : State} (hv : s.ent.v = false) (o : Opcode) (f : BitVec 63 → Table → Word) :
    entScore o f s = .next (faultEntry s 0x11#8 o.word) := by
  rw [entScore, hv, whenConstructed_false, raise_eq, Cause.code]

theorem entScore_of_exceeded {s : State} (hv : s.ent.v = true) (hd : s.ent.d.toNat < s.ent.t.length) (o : Opcode)
    (f : BitVec 63 → Table → Word) : entScore o f s = .next (faultEntry s 0x04#8 o.word) := by
  rw [entScore, hv, whenConstructed_true, if_pos hd, raise_eq, Cause.code]

theorem entScore_of_empty {s : State} (hv : s.ent.v = true) (hd : s.ent.t.length ≤ s.ent.d.toNat) (hn : s.ent.n = 0)
    (o : Opcode) (f : BitVec 63 → Table → Word) :
    entScore o f s =
      .next { s with draws := s.draws + 1, response := okResponse (some (Config.anyF64 s.draws)) } := by
  rw [entScore, hv, whenConstructed_true, if_neg hd.not_gt, if_pos hn, answerAnyF64_eq]

theorem entScore_of_scored {s : State} (hv : s.ent.v = true) (hd : s.ent.t.length ≤ s.ent.d.toNat)
    (hn : s.ent.n ≠ 0) (o : Opcode) (f : BitVec 63 → Table → Word) :
    entScore o f s = .next { s with response := okResponse (some (f s.ent.d s.ent.t)) } := by
  rw [entScore, hv, whenConstructed_true, if_neg hd.not_gt, if_neg hn, answer_eq]

/-- Settles O47: both commands are `entScore` of their own score. -/
theorem entScoresAnswer : Obligations.EntScoresAnswer := by
  intro s
  rw [exec_entEntropy, exec_entEfficiency]
  refine ⟨⟨rfl, rfl⟩, fun hv => ?_, fun hv hd => ?_, fun hv hd hn => ?_, fun hv hd hn => ?_⟩
  · exact ⟨entScore_of_unconstructed hv _ _, entScore_of_unconstructed hv _ _⟩
  · exact ⟨entScore_of_exceeded hv hd _ _, entScore_of_exceeded hv hd _ _⟩
  · exact ⟨⟨_, entScore_of_empty hv hd hn _ _⟩, _, entScore_of_empty hv hd hn _ _⟩
  · exact ⟨entScore_of_scored hv hd hn _ _, entScore_of_scored hv hd hn _ _⟩

end Sys2Proof.Machine
end

section
/-! R127: observations commute, so a run of ENT.ADDs that does not fault depends on the observations only as a
multiset. -/

namespace Sys2Proof.Machine

/-! `tableBump`, one equation per case of its first key. -/

theorem tableBump_cons_same (v c : Word) (t : Table) : tableBump ((v, c) :: t) v = (v, c + 1) :: t := by
  rw [tableBump, if_pos rfl]

theorem tableBump_cons_of_lt {v k : Word} (h : v < k) (c : Word) (t : Table) :
    tableBump ((k, c) :: t) v = (v, 1) :: (k, c) :: t := by
  rw [tableBump, if_neg (BitVec.ne_of_lt h), if_pos h]

theorem tableBump_cons_of_gt {v k : Word} (h : k < v) (c : Word) (t : Table) :
    tableBump ((k, c) :: t) v = (k, c) :: tableBump t v := by
  rw [tableBump, if_neg (BitVec.ne_of_lt h).symm, if_neg (BitVec.lt_asymm h)]

theorem tableBump_comm_of_lt {v w : Word} (h : v < w) (t : Table) :
    tableBump (tableBump t v) w = tableBump (tableBump t w) v := by
  induction t with
  | nil => rw [tableBump, tableBump, tableBump_cons_of_gt h, tableBump_cons_of_lt h, tableBump]
  | cons hd t ih =>
    obtain ⟨k, c⟩ := hd
    rcases BitVec.lt_trichotomy v k with hv | rfl | hv
    · rw [tableBump_cons_of_lt hv, tableBump_cons_of_gt h]
      rcases BitVec.lt_trichotomy w k with hw | rfl | hw
      · rw [tableBump_cons_of_lt hw, tableBump_cons_of_lt h]
      · rw [tableBump_cons_same, tableBump_cons_of_lt hv]
      · rw [tableBump_cons_of_gt hw, tableBump_cons_of_lt hv]
    · rw [tableBump_cons_same, tableBump_cons_of_gt h, tableBump_cons_of_gt h, tableBump_cons_same]
    · have hw : k < w := BitVec.lt_trans hv h
      rw [tableBump_cons_of_gt hv, tableBump_cons_of_gt hw, tableBump_cons_of_gt hw, tableBump_cons_of_gt hv, ih]

/-- Two additions commute in any table, canonical or not: each key goes to the first entry that is not below it. -/
theorem tableBump_comm (t : Table) (v w : Word) : tableBump (tableBump t v) w = tableBump (tableBump t w) v := by
  rcases BitVec.lt_trichotomy v w with h | rfl | h
  · exact tableBump_comm_of_lt h t
  · rfl
  · exact (tableBump_comm_of_lt h t).symm

theorem entAdded_comm (s : State) (v w : Word) : entAdded (entAdded s v) w = entAdded (entAdded s w) v := by
  simp only [entAdded_eq, tableBump_comm s.ent.t v w]

/-- R127: accepted observations leave the same state in any order. -/
theorem foldl_entAdded_perm {vs ws : List Word} (h : vs.Perm ws) (s : State) :
    vs.foldl entAdded s = ws.foldl entAdded s :=
  have : RightCommutative entAdded := ⟨entAdded_comm⟩
  h.foldl_eq s

/-! `exec` does not look at FAULT.HALT, but no command clears it: a fault within a run shows at its end. -/

theorem exec_keeps_halt {s : State} (hhalt : s.fault.halt = true) (i : Instr) :
    ∃ t, exec i s = .next t ∧ t.fault.halt = true := by
  obtain ⟨-, hexec⟩ | ⟨-, ⟨t, w, hexec, -, hfault, -⟩ | ⟨-, c, -, hexec⟩⟩ := Laws.exec_outcome i s
  · exact ⟨_, hexec, by rw [State.raise_fault]⟩
  · exact ⟨_, hexec, by rw [State.answer_fault, hfault, hhalt]⟩
  · exact ⟨_, hexec, by rw [State.raise_fault]⟩

theorem runCommands_keeps_halt {s : State} (hhalt : s.fault.halt = true) (is : List Instr) :
    (runCommands is s).1.fault.halt = true := by
  induction is generalizing s with
  | nil => exact hhalt
  | cons i is ih =>
    obtain ⟨t, hexec, ht⟩ := exec_keeps_halt hhalt i
    rw [runCommands_cons_of_next hexec]
    exact ih ht

theorem expand_entAddn (vs : List Word) : (Pseudo.entAddn vs).expand = vs.map Instr.entAdd := rfl

/-- A run of ENT.ADDs that ends without a fault accepted every observation. -/
theorem runCommands_entAdd_of_running {vs : List Word} {s : State}
    (hend : (runCommands (vs.map Instr.entAdd) s).1.fault.halt = false) :
    (runCommands (vs.map Instr.entAdd) s).1 = vs.foldl entAdded s := by
  induction vs generalizing s with
  | nil => rfl
  | cons v vs ih =>
    rw [List.map_cons] at hend ⊢
    obtain hadded | ⟨c, hraised⟩ := execEntAdd_cases v s
    · rw [runCommands_cons_of_next ((exec_entAdd v s).trans hadded)] at hend ⊢
      exact ih hend
    · have hhalt : (s.raise c Opcode.entAdd.word).fault.halt = true := by rw [State.raise_fault]
      rw [runCommands_cons_of_next ((exec_entAdd v s).trans hraised), runCommands_keeps_halt hhalt] at hend
      cases hend

/-- Settles O51: both runs accept all their observations, and those commute. The table's order is not needed. -/
theorem observationsCommute : Obligations.ObservationsCommute := by
  intro vs ws s _ hrunning hperm hvs hws
  simp only [expand_entAddn] at hvs hws ⊢
  rw [runCommands_entAdd_of_running (by rw [hvs, hrunning]),
    runCommands_entAdd_of_running (by rw [hws, hrunning]), foldl_entAdded_perm hperm]

end Sys2Proof.Machine
end

section
/-! A request that decodes is well formed (R49, R50). -/

namespace Sys2Proof

/-! Operand words that make a command are as many as R46 gives it (R50): one fact per reader, then all commands. -/

theorem length_of_noOperand {i j : Instr} : ∀ {ops : List Word}, noOperand i ops = some j → ops.length = 0
  | [], _ => rfl

theorem length_of_oneOperand {f : Word → Instr} {j : Instr} :
    ∀ {ops : List Word}, oneOperand f ops = some j → ops.length = 1
  | [_], _ => rfl

theorem length_of_twoOperands {f : Word → Word → Instr} {j : Instr} :
    ∀ {ops : List Word}, twoOperands f ops = some j → ops.length = 2
  | [_, _], _ => rfl

theorem length_of_map_pairWords {f : PairWords → Instr} {j : Instr} :
    ∀ {ops : List Word}, (PairWords.ofList? ops).map f = some j → ops.length = 2
  | [_, _], _ => rfl

theorem length_of_map_quadWords {f : QuadWords → Instr} {j : Instr} :
    ∀ {ops : List Word}, (QuadWords.ofList? ops).map f = some j → ops.length = 4
  | [_, _, _, _], _ => rfl

theorem length_of_map_octWords {f : OctWords → Instr} {j : Instr} :
    ∀ {ops : List Word}, (OctWords.ofList? ops).map f = some j → ops.length = 8
  | [_, _, _, _, _, _, _, _], _ => rfl

theorem length_of_map_arrWords {f : ArrWords → Instr} {j : Instr} {ops : List Word}
    (h : (ArrWords.ofList? ops).map f = some j) : ops.length = 16 := by
  by_contra hlen
  simp [ArrWords.ofList?, hlen] at h

theorem length_of_arrInitOperands {j : Instr} : ∀ {ops : List Word}, arrInitOperands ops = some j → ops.length = 17
  | _ :: _, h => congrArg (· + 1) (length_of_map_arrWords h)

theorem length_of_build? {o : Opcode} {ops : List Word} {i : Instr} (h : o.build? ops = some i) :
    ops.length = o.arity := by
  cases o with
  | rotl => exact length_of_twoOperands h
  | arrInit => exact length_of_arrInitOperands h
  | arrEq => exact length_of_map_arrWords h
  | pairInit | pairEq => exact length_of_map_pairWords h
  | quadInit | quadEq => exact length_of_map_quadWords h
  | octInit | octEq => exact length_of_map_octWords h
  | smInit | smEq | pairSeed | arrSeed | quadSeed | octSeed | entInit | entAdd => exact length_of_oneOperand h
  | smNext | pairHost | pairNextP | pairNextPP | pairNextSS | arrHost | arrNextSS | arrNextS | quadHost | quadNextP
  | quadNextPP | quadNextSS | octHost | octNextP | octNextPP | octNextSS | entEntropy | entEfficiency =>
    exact length_of_noOperand h

theorem exists_build?_of_decode {r : Request} {i : Instr} (h : decode r = .ok i) :
    ∃ o, Opcode.ofWord? r.cw = some o ∧ o.build? r.ops = some i := by
  unfold decode at h
  split at h
  · cases h
  · next o hword =>
    split at h
    · cases h
    · next j hbuild =>
      cases h
      exact ⟨o, hword, hbuild⟩

theorem wellFormed_of_decode {r : Request} {i : Instr} (h : decode r = .ok i) : r.wellFormed = true := by
  obtain ⟨o, hword, hbuild⟩ := exists_build?_of_decode h
  have hrequest : r = ⟨o.word, r.ops⟩ := by rw [word_of_ofWord? hword]
  rw [hrequest]
  exact wellFormed_of_arity o r.ops (length_of_build? hbuild)

theorem exists_decode_eq_error {r : Request} (h : r.wellFormed = false) : ∃ e, decode r = .error e := by
  cases hdecode : decode r with
  | error e => exact ⟨e, rfl⟩
  | ok i => rw [wellFormed_of_decode hdecode] at h; cases h

end Sys2Proof
end

section
/-! A transaction that runs no command: on a halted CORE (R132), or a request that decodes to none (R134). -/

namespace Sys2Proof.Machine

theorem accept_of_port_transaction {s : State} {r : Request} {rest : List HostEvent}
    (hport : s.port = .transaction r :: rest) : s.accept = (s.setPort rest).acceptRequest r := by
  simp only [State.accept, hport]

theorem acceptRequest_of_halted {s : State} (hhalt : s.fault.halt = true) (r : Request) :
    s.acceptRequest r = .done s.answerHalted := by
  rw [State.acceptRequest, if_pos hhalt]

theorem acceptRequest_of_illegal {s : State} (hrun : s.fault.halt = false) {r : Request}
    (hillegal : r.wellFormed = false) : s.acceptRequest r = .done (s.raise .illegalCommand r.cw) := by
  obtain ⟨e, hdecode⟩ := exists_decode_eq_error hillegal
  simp [State.acceptRequest, hrun, hdecode]

theorem step_of_accept_done {s t : State} (h : s.accept = .done t) : step s = .next t := by
  simp only [step, h]

/-- Settles O7: a request that is not well formed does not decode, for its word or for its operand count, and either
error raises the one cause. -/
theorem illegalTransactionFaults : Obligations.IllegalTransactionFaults := by
  intro s r rest hrun hport hillegal
  have hrun' : (s.setPort rest).fault.halt = false := by rw [State.setPort_fault, hrun]
  rw [step_of_accept_done ((accept_of_port_transaction hport).trans (acceptRequest_of_illegal hrun' hillegal)),
    raise_eq, setPort_eq]
  rfl

/-- Settles O6: the halted check comes before the decoder, so what the request asks does not matter. -/
theorem haltedTransactionAnswered : Obligations.HaltedTransactionAnswered := by
  intro s r rest hhalt hport
  have hhalt' : (s.setPort rest).fault.halt = true := by rw [State.setPort_fault, hhalt]
  rw [step_of_accept_done ((accept_of_port_transaction hport).trans (acceptRequest_of_halted hhalt' r)),
    answerHalted_eq, setPort_eq]

end Sys2Proof.Machine
end

section
/-! R131, R142: which commands fault on which valid bit, read off `Laws.exec_outcome`. -/

namespace Sys2Proof.Machine

theorem exec_of_unconstructed {i : Instr} {s : State} (hv : validBit? s i = some false) :
    exec i s = .next (s.raise .notConstructed i.opcode.word) := by
  obtain ⟨-, hraised⟩ | ⟨hv', -⟩ := Laws.exec_outcome i s
  · exact hraised
  · exact absurd hv hv'

theorem exec_of_constructed {i : Instr} {s : State} (hv : validBit? s i ≠ some false) :
    Laws.Answers i s (exec i s) ∨ mayFaultConstructed i = true ∧ Laws.Faults i s (exec i s) := by
  obtain ⟨hv', -⟩ | ⟨-, houtcome⟩ := Laws.exec_outcome i s
  · exact absurd hv' hv
  · exact houtcome

/-- The response tells an answer from a fault entry, also where the state before was halted by that very fault. -/
theorem answer_ne_faultEntry (s t : State) (w : Option Word) (code : BitVec 8) (cw : CmdWord) :
    t.answer w ≠ faultEntry s code cw := by
  intro h
  rw [answer_eq] at h
  have hresponse : okResponse w = faultResponse code := congrArg State.response h
  simp [okResponse, faultResponse] at hresponse

theorem code_eq_of_raise_eq_faultEntry {s t : State} {c : Cause} {code : BitVec 8} {cw cw' : CmdWord}
    (h : s.raise c cw = faultEntry t code cw') : c.code = code := by
  rw [raise_eq] at h
  exact congrArg (fun u : State => u.fault.cause) h

/-- Settles O15: a command that finds its unit constructed answers OK or faults with one of six other causes. -/
theorem unconstructedUnitFaults : Obligations.UnconstructedUnitFaults := by
  refine fun i s => ⟨fun hv => ?_, fun hv hraised => ?_⟩
  · rw [exec_of_unconstructed hv, raise_eq]
    rfl
  · obtain ⟨t, w, hexec, -⟩ | ⟨-, c, hc, hexec⟩ := exec_of_constructed hv
    · exact answer_ne_faultEntry s t w _ _ (Host.Outcome.next.inj (hexec.symm.trans hraised))
    · have hcode : c.code = 0x11#8 :=
        code_eq_of_raise_eq_faultEntry (Host.Outcome.next.inj (hexec.symm.trans hraised))
      have hother : ∀ c ∈ [Cause.invalidState, .invalidPointer, .invalidDomain, .domainExceeded, .counterOverflow,
        .tableFull], c.code ≠ 0x11#8 := by decide
      exact hother c hc hcode

/-- Settles O16: past the valid bit only the commands of `mayFaultConstructed` can fault, so any other answers OK. -/
theorem faultFreeCommands : Obligations.FaultFreeCommands := by
  intro i s hnofault hv
  obtain ⟨t, w, hexec, -, hfault, -⟩ | ⟨hmay, -⟩ := exec_of_constructed hv
  · exact ⟨t.answer w, w, hexec, by rw [answer_eq], by rw [State.answer_fault, hfault]⟩
  · rw [hnofault] at hmay
    cases hmay

end Sys2Proof.Machine
end

section
/-! Decoding undoes encoding, and encoding undoes decoding (R40, R46, R48). -/

namespace Sys2Proof

theorem arrWords_ofList?_toList (a : ArrWords) : ArrWords.ofList? a.toList = some a := by
  simp [ArrWords.ofList?, Vector.toList]

/-- The operands an instruction carries are those its command asks for. -/
theorem build?_operands (i : Instr) : i.opcode.build? i.operands = some i := by
  cases i with
  | arrInit p a => exact congrArg (Option.map (Instr.arrInit p)) (arrWords_ofList?_toList a)
  | arrEq a => exact congrArg (Option.map Instr.arrEq) (arrWords_ofList?_toList a)
  | _ => rfl

theorem decode_of_build? {r : Request} {o : Opcode} {i : Instr} (hword : Opcode.ofWord? r.cw = some o)
    (hbuild : o.build? r.ops = some i) : decode r = .ok i := by
  simp only [decode, hword, hbuild]

theorem decode_encode (i : Instr) : decode (encode i) = .ok i :=
  decode_of_build? (ofWord?_word i.opcode) (build?_operands i)

/-- Settles O2. -/
theorem decodeOfEncode : Obligations.DecodeOfEncode := decode_encode

theorem decode_toOption_of_eq_encode {r : Request} (i : Instr) (h : r = encode i) :
    (decode r).toOption = some i := by
  rw [h, decode_encode]
  rfl

/-- Settles O1: each of the seven requests is the one `encode` gives its command. -/
theorem fieldWordsDecode : Obligations.FieldWordsDecode :=
  ⟨decode_toOption_of_eq_encode _ rfl, decode_toOption_of_eq_encode _ rfl, decode_toOption_of_eq_encode _ rfl,
    decode_toOption_of_eq_encode _ rfl, decode_toOption_of_eq_encode _ rfl, decode_toOption_of_eq_encode _ rfl,
    decode_toOption_of_eq_encode _ rfl⟩

/-! What each reader of operand words answers determines the words: one fact per reader, then all commands. -/

theorem eq_of_noOperand {i j : Instr} : ∀ {ops : List Word}, noOperand i ops = some j → ops = [] ∧ i = j
  | [], h => ⟨rfl, Option.some.inj h⟩

theorem eq_of_oneOperand {f : Word → Instr} {j : Instr} :
    ∀ {ops : List Word}, oneOperand f ops = some j → ∃ a, ops = [a] ∧ f a = j
  | [a], h => ⟨a, rfl, Option.some.inj h⟩

theorem eq_of_twoOperands {f : Word → Word → Instr} {j : Instr} :
    ∀ {ops : List Word}, twoOperands f ops = some j → ∃ a b, ops = [a, b] ∧ f a b = j
  | [a, b], h => ⟨a, b, rfl, Option.some.inj h⟩

theorem eq_of_map_pairWords {f : PairWords → Instr} {j : Instr} :
    ∀ {ops : List Word}, (PairWords.ofList? ops).map f = some j → ∃ w : PairWords, ops = w.toList ∧ f w = j
  | [s0, s1], h => ⟨⟨s0, s1⟩, rfl, Option.some.inj h⟩

theorem eq_of_map_quadWords {f : QuadWords → Instr} {j : Instr} :
    ∀ {ops : List Word}, (QuadWords.ofList? ops).map f = some j → ∃ w : QuadWords, ops = w.toList ∧ f w = j
  | [s0, s1, s2, s3], h => ⟨⟨s0, s1, s2, s3⟩, rfl, Option.some.inj h⟩

theorem eq_of_map_octWords {f : OctWords → Instr} {j : Instr} :
    ∀ {ops : List Word}, (OctWords.ofList? ops).map f = some j → ∃ w : OctWords, ops = w.toList ∧ f w = j
  | [s0, s1, s2, s3, s4, s5, s6, s7], h => ⟨⟨s0, s1, s2, s3, s4, s5, s6, s7⟩, rfl, Option.some.inj h⟩

/-- The list of the right length is the array's own, since reading that back gives the array. -/
theorem eq_of_map_arrWords {f : ArrWords → Instr} {j : Instr} {ops : List Word}
    (h : (ArrWords.ofList? ops).map f = some j) : ∃ a : ArrWords, ops = a.toList ∧ f a = j := by
  have hlen : ops.length = 16 := length_of_map_arrWords h
  rw [ArrWords.ofList?, dif_pos hlen] at h
  exact ⟨_, rfl, Option.some.inj h⟩

theorem eq_of_arrInitOperands {j : Instr} :
    ∀ {ops : List Word}, arrInitOperands ops = some j → ∃ p a, ops = p :: Vector.toList a ∧ Instr.arrInit p a = j
  | p :: _, h => by
    obtain ⟨a, rfl, hj⟩ := eq_of_map_arrWords h
    exact ⟨p, a, rfl, hj⟩

/-- The instruction built names its command and carries the words it was built from. -/
theorem encode_of_build? {o : Opcode} {ops : List Word} {i : Instr} (h : o.build? ops = some i) :
    encode i = ⟨o.word, ops⟩ := by
  cases o with
  | rotl =>
    obtain ⟨a, b, rfl, rfl⟩ := eq_of_twoOperands h
    rfl
  | arrInit =>
    obtain ⟨p, a, rfl, rfl⟩ := eq_of_arrInitOperands h
    rfl
  | arrEq =>
    obtain ⟨a, rfl, rfl⟩ := eq_of_map_arrWords h
    rfl
  | pairInit | pairEq =>
    obtain ⟨w, rfl, rfl⟩ := eq_of_map_pairWords h
    rfl
  | quadInit | quadEq =>
    obtain ⟨w, rfl, rfl⟩ := eq_of_map_quadWords h
    rfl
  | octInit | octEq =>
    obtain ⟨w, rfl, rfl⟩ := eq_of_map_octWords h
    rfl
  | smInit | smEq | pairSeed | arrSeed | quadSeed | octSeed | entInit | entAdd =>
    obtain ⟨a, rfl, rfl⟩ := eq_of_oneOperand h
    rfl
  | smNext | pairHost | pairNextP | pairNextPP | pairNextSS | arrHost | arrNextSS | arrNextS | quadHost | quadNextP
  | quadNextPP | quadNextSS | octHost | octNextP | octNextPP | octNextSS | entEntropy | entEfficiency =>
    obtain ⟨rfl, rfl⟩ := eq_of_noOperand h
    rfl

/-- Settles O3: the word names its command only, and the operand words are those the instruction carries. -/
theorem encodeOfDecode : Obligations.EncodeOfDecode := by
  intro r i h
  obtain ⟨o, hword, hbuild⟩ := exists_build?_of_decode h
  rw [encode_of_build? hbuild, word_of_ofWord? hword]

end Sys2Proof
end

section
/-! The decoder accepts the requests that pass the field checks (R41 to R46, R49, R50). -/

namespace Sys2Proof

/-- Operand words as many as R46 gives a command make an instruction of it (R47: each is any word). -/
theorem exists_build?_of_length {o : Opcode} {ops : List Word} (h : ops.length = o.arity) :
    ∃ i, o.build? ops = some i := by
  cases o with
  | rotl =>
    match ops, h with
    | [_, _], _ => exact ⟨_, rfl⟩
  | arrInit =>
    match ops, h with
    | _ :: ws, h =>
      have hlen : ws.length = 16 := Nat.succ.inj h
      simp [Opcode.build?, arrInitOperands, ArrWords.ofList?, hlen]
  | arrEq =>
    have hlen : ops.length = 16 := h
    simp [Opcode.build?, ArrWords.ofList?, hlen]
  | pairInit | pairEq =>
    match ops, h with
    | [_, _], _ => exact ⟨_, rfl⟩
  | quadInit | quadEq =>
    match ops, h with
    | [_, _, _, _], _ => exact ⟨_, rfl⟩
  | octInit | octEq =>
    match ops, h with
    | [_, _, _, _, _, _, _, _], _ => exact ⟨_, rfl⟩
  | smInit | smEq | pairSeed | arrSeed | quadSeed | octSeed | entInit | entAdd =>
    match ops, h with
    | [_], _ => exact ⟨_, rfl⟩
  | smNext | pairHost | pairNextP | pairNextPP | pairNextSS | arrHost | arrNextSS | arrNextS | quadHost | quadNextP
  | quadNextPP | quadNextSS | octHost | octNextP | octNextPP | octNextSS | entEntropy | entEfficiency =>
    match ops, h with
    | [], _ => exact ⟨_, rfl⟩

theorem toNat_of_unitLegal {u : BitVec 8} (h : unitLegal u = true) : u.toNat < 8 := by
  revert u; decide

theorem toNat_of_fnLegal {u f : BitVec 8} (hf : fnLegal u f = true) : f.toNat < 5 := by
  unfold fnLegal at hf
  split at hf
  · revert f; decide
  · split at hf
    · revert f; decide
    · split at hf
      · revert f; decide
      · revert f; decide

theorem toNat_of_scrLegal {u f c : BitVec 8} (hc : scrLegal u f c = true) : c.toNat < 4 := by
  unfold scrLegal at hc
  split at hc
  · split at hc
    · revert c; decide
    · revert c; decide
  · revert c; decide

/-- The fields a legal word can have are few: each combination that R43 to R45 allow is one of the 35 words. -/
theorem isSome_ofWord?_of_fields : ∀ u < 8, ∀ f < 5, ∀ c < 4,
    (unitLegal (BitVec.ofNat 8 u) && fnLegal (BitVec.ofNat 8 u) (BitVec.ofNat 8 f) &&
      scrLegal (BitVec.ofNat 8 u) (BitVec.ofNat 8 f) (BitVec.ofNat 8 c)) = true →
    (Opcode.ofWord? (BitVec.ofNat 8 u ++ BitVec.ofNat 8 f ++ BitVec.ofNat 8 c ++ 0#8)).isSome = true := by
  decide

/-- A command word is its four fields side by side (R41). -/
theorem Request.cw_eq_fields (r : Request) : r.cw = r.unit ++ r.fn ++ r.scr ++ r.zero := by
  simp only [Request.unit, Request.fn, Request.scr, Request.zero]
  rw [BitVec.extractLsb'_append_extractLsb'_eq_extractLsb' (start₁ := 16) (len₁ := 8) rfl,
    BitVec.extractLsb'_append_extractLsb'_eq_extractLsb' (start₁ := 8) (len₁ := 8) rfl,
    BitVec.extractLsb'_append_extractLsb'_eq_extractLsb' (start₁ := 0) (len₁ := 8) rfl]
  simp

theorem exists_word_of_wordLegal {r : Request} (h : r.wordLegal = true) : ∃ o : Opcode, r.cw = o.word := by
  have hfields := h
  simp only [Request.wordLegal, Bool.and_eq_true, decide_eq_true_eq] at hfields
  obtain ⟨⟨⟨hunit, hfn⟩, hscr⟩, hzero⟩ := hfields
  have hword := isSome_ofWord?_of_fields _ (toNat_of_unitLegal hunit) _ (toNat_of_fnLegal hfn) _
    (toNat_of_scrLegal hscr)
  simp only [BitVec.ofNat_toNat, BitVec.setWidth_eq, hunit, hfn, hscr, Bool.and_self, forall_const, ← hzero,
    ← Request.cw_eq_fields] at hword
  obtain ⟨o, ho⟩ := Option.isSome_iff_exists.mp hword
  exact ⟨o, (word_of_ofWord? ho).symm⟩

theorem ofWord?_of_not_wordLegal {r : Request} (h : r.wordLegal = false) : Opcode.ofWord? r.cw = none := by
  refine Option.eq_none_iff_forall_ne_some.mpr fun o ho => ?_
  have hlegal : r.wordLegal = true := by
    rw [show r = ⟨o.word, r.ops⟩ by rw [word_of_ofWord? ho]]
    exact word_wordLegal o
  simp [h] at hlegal

/-- A request with a command's word is well formed exactly when it carries as many operands as the command. -/
theorem wellFormed_word_iff (o : Opcode) (ops : List Word) :
    (Request.mk o.word ops).wellFormed = true ↔ ops.length = o.arity := by
  have hlegal : (Request.mk o.word ops).wordLegal = true := word_wordLegal o
  have harity : fieldArity (Request.mk o.word ops).unit (Request.mk o.word ops).fn = o.arity := fieldArity_word o
  simp [Request.wellFormed, hlegal, harity]

/-- Settles O4: a legal word is a command's, and then the number of operands decides. -/
theorem decodeAcceptsExactlyWellFormed : Obligations.DecodeAcceptsExactlyWellFormed := by
  refine fun r => ⟨fun hwell => ?_, fun hword => ?_, fun hword hill => ?_⟩
  · have hlegal : r.wordLegal = true := (Bool.and_eq_true_iff.mp hwell).1
    obtain ⟨o, ho⟩ := exists_word_of_wordLegal hlegal
    rw [show r = ⟨o.word, r.ops⟩ by rw [← ho]] at hwell ⊢
    obtain ⟨i, hi⟩ := exists_build?_of_length ((wellFormed_word_iff o r.ops).mp hwell)
    exact ⟨i, decode_of_build? (ofWord?_word o) hi⟩
  · simp only [decode, ofWord?_of_not_wordLegal hword]
  · obtain ⟨o, ho⟩ := exists_word_of_wordLegal hword
    rw [show r = ⟨o.word, r.ops⟩ by rw [← ho]] at hill ⊢
    have hnone : o.build? r.ops = none := by
      refine Option.eq_none_iff_forall_ne_some.mpr fun i hi => ?_
      simp [(wellFormed_word_iff o r.ops).mpr (length_of_build? hi)] at hill
    simp only [decode, ofWord?_word, hnone]

end Sys2Proof
end

section
/-! R20: the updates are bijections of their state words. Each is injective, since its words can be undone one after the
other, and the state spaces are finite. -/

namespace Sys2Proof.Machine

theorem rotl64_injective {k : Nat} (hk : k < 64) : Function.Injective (fun x : Word => rotl64 x k) := by
  intro x y h
  refine BitVec.eq_of_getLsbD_eq fun i hi => ?_
  rw [← rotl64_getLsbD_add_mod x hk hi, ← rotl64_getLsbD_add_mod y hk hi]
  exact congrArg (fun w : Word => w.getLsbD ((i + k) % 64)) h

/-- A word that equals its own left shift has no lowest 1. -/
theorem eq_zero_of_eq_shiftLeft {k : Nat} (hk : 0 < k) {d : Word} (h : d = d <<< k) : d = 0 := by
  have hbits : ∀ i, d.getLsbD i = false := by
    intro i
    induction i using Nat.strong_induction_on with
    | _ i ih =>
      rw [h, BitVec.getLsbD_shiftLeft]
      by_cases hik : i < k
      · simp [hik]
      · simp [ih (i - k) (by omega)]
  refine BitVec.eq_of_getLsbD_eq fun i _ => ?_
  rw [hbits i]
  exact BitVec.getLsbD_zero.symm

/-- The left xor-shift of the updates is linear with a trivial kernel. -/
theorem xor_shiftLeft_injective {k : Nat} (hk : 0 < k) : Function.Injective (fun x : Word => x ^^^ (x <<< k)) := by
  intro x y h
  have hsum : (x ^^^ y) ^^^ ((x ^^^ y) <<< k) = 0 := by
    have hxy : (x ^^^ (x <<< k)) ^^^ (y ^^^ (y <<< k)) = 0 := BitVec.xor_eq_zero_iff.mpr h
    rw [BitVec.shiftLeft_xor_distrib, ← hxy]
    ac_rfl
  exact BitVec.xor_eq_zero_iff.mp (eq_zero_of_eq_shiftLeft hk (BitVec.xor_eq_zero_iff.mp hsum))

theorem pairUpdate_injective : Function.Injective pairUpdate := by
  rintro ⟨x0, x1⟩ ⟨y0, y1⟩ h
  simp only [pairUpdate, PairWords.mk.injEq] at h
  obtain ⟨h0, h1⟩ := h
  have ht : x0 ^^^ x1 = y0 ^^^ y1 := rotl64_injective (k := 37) (by decide) h1
  rw [ht, BitVec.xor_left_inj, BitVec.xor_left_inj] at h0
  obtain rfl : x0 = y0 := rotl64_injective (k := 24) (by decide) h0
  rw [BitVec.xor_right_inj] at ht
  rw [ht]

theorem quadUpdate_injective : Function.Injective quadUpdate := by
  rintro ⟨x0, x1, x2, x3⟩ ⟨y0, y1, y2, y3⟩ h
  simp only [quadUpdate, QuadWords.mk.injEq] at h
  obtain ⟨h0, h1, h2, h3⟩ := h
  have h31 : x3 ^^^ x1 = y3 ^^^ y1 := rotl64_injective (k := 45) (by decide) h3
  rw [BitVec.xor_assoc, BitVec.xor_assoc, h31, BitVec.xor_left_inj] at h0
  subst h0
  rw [BitVec.xor_left_inj] at h1
  have hshift : x1 ^^^ (x1 <<< 17) = y1 ^^^ (y1 <<< 17) := by
    calc x1 ^^^ (x1 <<< 17) = (x1 ^^^ x2) ^^^ (x2 ^^^ x0 ^^^ (x1 <<< 17)) ^^^ x0 := by
          grind
      _ = (y1 ^^^ y2) ^^^ (y2 ^^^ x0 ^^^ (y1 <<< 17)) ^^^ x0 := by rw [h1, h2]
      _ = y1 ^^^ (y1 <<< 17) := by grind
  obtain rfl : x1 = y1 := xor_shiftLeft_injective (by decide) hshift
  rw [BitVec.xor_right_inj] at h1
  rw [BitVec.xor_left_inj] at h31
  rw [h1, h31]

theorem octUpdate_injective : Function.Injective octUpdate := by
  rintro ⟨x0, x1, x2, x3, x4, x5, x6, x7⟩ ⟨y0, y1, y2, y3, y4, y5, y6, y7⟩ h
  simp only [octUpdate, OctWords.mk.injEq] at h
  obtain ⟨h0, h1, h2, h3, h4, h5, h6, h7⟩ := h
  rw [BitVec.xor_assoc, BitVec.xor_assoc, h2, BitVec.xor_left_inj] at h1
  subst h1
  rw [BitVec.xor_left_inj] at h5
  subst h5
  rw [BitVec.xor_left_inj, BitVec.xor_left_inj] at h4
  subst h4
  rw [BitVec.xor_left_inj] at h3
  subst h3
  have h73 : x7 ^^^ x3 = y7 ^^^ x3 := rotl64_injective (k := 21) (by decide) h7
  rw [BitVec.xor_left_inj] at h73
  subst h73
  rw [BitVec.xor_left_inj, BitVec.xor_left_inj, BitVec.xor_left_inj] at h6
  subst h6
  rw [BitVec.xor_left_inj] at h0
  subst h0
  rw [BitVec.xor_left_inj] at h2
  rw [h2]

/-- At one pointer the two written slots determine the two words they were written from. -/
theorem arrUpdate_injective (p : BitVec 4) (v : Bool) :
    Function.Injective (fun a => (arrUpdate { a := a, p := p, v := v }).a) := by
  intro a b h
  have hslot (i : BitVec 4) := congrArg (fun c => arrGet c i) h
  simp only [arrGet_arrUpdate] at hslot
  have hne : p + 1 ≠ p := add_one_ne_self p
  have hq := hslot p
  have hp := hslot (p + 1)
  simp only [if_true, hne, if_false, ← rotl64_eq_rotateLeft _ 25 (by decide),
    ← rotl64_eq_rotateLeft _ 36 (by decide)] at hq hp
  have ht := rotl64_injective (k := 36) (by decide) hp
  rw [ht, BitVec.xor_left_inj, BitVec.xor_left_inj] at hq
  have hnext : arrGet a (p + 1) = arrGet b (p + 1) := rotl64_injective (k := 25) (by decide) hq
  rw [hnext, BitVec.xor_left_inj] at ht
  refine eq_iff_forall_arrGet.mpr fun i => ?_
  by_cases hiq : i = p
  · rw [hiq, ht]
  · by_cases hip : i = p + 1
    · rw [hip, hnext]
    · simpa only [hiq, hip, if_false] using hslot i

/-! The state spaces are finite. -/

theorem finite_word : Finite Word := Finite.of_injective BitVec.toFin BitVec.toFin_injective

theorem finite_pairWords : Finite PairWords :=
  have := finite_word
  Finite.of_injective (fun w => (w.s0, w.s1)) (by rintro ⟨⟩ ⟨⟩ h; simp_all)

theorem finite_quadWords : Finite QuadWords :=
  have := finite_word
  Finite.of_injective (fun w => (w.s0, w.s1, w.s2, w.s3)) (by rintro ⟨⟩ ⟨⟩ h; simp_all)

theorem finite_octWords : Finite OctWords :=
  have := finite_word
  Finite.of_injective (fun w => (w.s0, w.s1, w.s2, w.s3, w.s4, w.s5, w.s6, w.s7)) (by rintro ⟨⟩ ⟨⟩ h; simp_all)

theorem finite_arrWords : Finite ArrWords :=
  have := finite_word
  have : Finite (BitVec 4) := Finite.of_injective BitVec.toFin BitVec.toFin_injective
  Finite.of_injective arrGet fun _ _ h => eq_iff_forall_arrGet.mpr (congrFun h)

theorem pairUpdate_bijective : Function.Bijective pairUpdate :=
  have := finite_pairWords
  Finite.injective_iff_bijective.mp pairUpdate_injective

theorem quadUpdate_bijective : Function.Bijective quadUpdate :=
  have := finite_quadWords
  Finite.injective_iff_bijective.mp quadUpdate_injective

theorem octUpdate_bijective : Function.Bijective octUpdate :=
  have := finite_octWords
  Finite.injective_iff_bijective.mp octUpdate_injective

theorem arrUpdate_bijective (p : BitVec 4) (v : Bool) :
    Function.Bijective (fun a => (arrUpdate { a := a, p := p, v := v }).a) :=
  have := finite_arrWords
  Finite.injective_iff_bijective.mp (arrUpdate_injective p v)

/-! The all-zero state is a fixed point, and by injectivity no other state goes to it. -/

theorem pairUpdate_of_zero {w : PairWords} (h : pairValid w = false) : pairUpdate w = w := by
  obtain ⟨h0, h1⟩ := (pairValid_eq_false w).mp h
  cases w
  simp_all [pairUpdate, rotl64]

theorem quadUpdate_of_zero {w : QuadWords} (h : quadValid w = false) : quadUpdate w = w := by
  obtain ⟨h0, h1, h2, h3⟩ := (quadValid_eq_false w).mp h
  cases w
  simp_all [quadUpdate, rotl64]

theorem octUpdate_of_zero {w : OctWords} (h : octValid w = false) : octUpdate w = w := by
  obtain ⟨h0, h1, h2, h3, h4, h5, h6, h7⟩ := (octValid_eq_false w).mp h
  cases w
  simp_all [octUpdate, rotl64]

theorem arrUpdate_of_zero {b : ArrBank} (h : arrValid b.a = false) : (arrUpdate b).a = b.a := by
  have hzero := (arrValid_eq_false b.a).mp h
  refine eq_iff_forall_arrGet.mpr fun i => ?_
  simp [arrGet_arrUpdate, hzero]

/-- Settles O41. -/
theorem updatesAreBijective : Obligations.UpdatesAreBijective :=
  ⟨⟨pairUpdate_bijective, fun _ => pairUpdate_of_zero⟩, ⟨quadUpdate_bijective, fun _ => quadUpdate_of_zero⟩,
    ⟨octUpdate_bijective, fun _ => octUpdate_of_zero⟩,
    fun p v => ⟨arrUpdate_bijective p v, fun _ h => arrUpdate_of_zero (b := { a := _, p := p, v := v }) h⟩⟩

/-- An injection that fixes the states failing a check takes the others to others. -/
theorem valid_of_injective {α : Type} {f : α → α} {valid : α → Bool} (hf : Function.Injective f)
    (hfix : ∀ w, valid w = false → f w = w) {w : α} (hw : valid w = true) : valid (f w) = true := by
  by_contra hinvalid
  have hself : f w = w := hf (hfix (f w) (Bool.eq_false_iff.mpr hinvalid))
  rw [hself] at hinvalid
  exact hinvalid hw

theorem pairValid_pairUpdate {w : PairWords} (h : pairValid w = true) : pairValid (pairUpdate w) = true :=
  valid_of_injective pairUpdate_injective (fun _ => pairUpdate_of_zero) h

theorem quadValid_quadUpdate {w : QuadWords} (h : quadValid w = true) : quadValid (quadUpdate w) = true :=
  valid_of_injective quadUpdate_injective (fun _ => quadUpdate_of_zero) h

theorem octValid_octUpdate {w : OctWords} (h : octValid w = true) : octValid (octUpdate w) = true :=
  valid_of_injective octUpdate_injective (fun _ => octUpdate_of_zero) h

theorem arrValid_arrUpdate {b : ArrBank} (h : arrValid b.a = true) : arrValid (arrUpdate b).a = true :=
  valid_of_injective (arrUpdate_injective b.p b.v) (fun _ h => arrUpdate_of_zero (b := { b with a := _ }) h) h

end Sys2Proof.Machine
end

section
/-! What a step can do, said once: one constructor per event at the port (R35, R132, R138, R150). -/

namespace Sys2Proof.Machine

/-- `StepCase s o`: `o` is what a step from `s` answers, by the next event at the port. -/
inductive StepCase (s : State) : Result → Prop
  | waiting (hport : s.port = []) : StepCase s (.next s)
  | halted (r : Request) (rest : List HostEvent) (hport : s.port = .transaction r :: rest)
      (hhalt : s.fault.halt = true) : StepCase s (.next (s.setPort rest).answerHalted)
  | illegal (r : Request) (rest : List HostEvent) (e : DecodeError) (hport : s.port = .transaction r :: rest)
      (hrun : s.fault.halt = false) (hdecode : decode r = .error e) :
      StepCase s (.next ((s.setPort rest).raise .illegalCommand r.cw))
  | command (r : Request) (rest : List HostEvent) (i : Instr) (hport : s.port = .transaction r :: rest)
      (hrun : s.fault.halt = false) (hdecode : decode r = .ok i) {o : Result} (hexec : exec i (s.setPort rest) = o) :
      StepCase s o
  | reset (rest : List HostEvent) (hport : s.port = .reset :: rest) : StepCase s (.next (s.setPort rest).assertReset)
  | concurrent (r₁ r₂ : Request) (rest : List HostEvent) (hport : s.port = .concurrent r₁ r₂ :: rest) :
      StepCase s (.refused .concurrentTransactions)

theorem step_of_accept_run {s t : State} {i : Instr} (h : s.accept = .run i t) : step s = exec i t := by
  simp only [step, h]

theorem step_of_waiting {s : State} (hport : s.port = []) : step s = .next s :=
  step_of_accept_done (by simp only [State.accept, hport])

theorem step_of_reset {s : State} {rest : List HostEvent} (hport : s.port = .reset :: rest) :
    step s = .next (s.setPort rest).assertReset :=
  step_of_accept_done (by simp only [State.accept, hport])

theorem step_of_halted {s : State} {r : Request} {rest : List HostEvent} (hport : s.port = .transaction r :: rest)
    (hhalt : s.fault.halt = true) : step s = .next (s.setPort rest).answerHalted :=
  step_of_accept_done ((accept_of_port_transaction hport).trans
    (acceptRequest_of_halted (by rw [State.setPort_fault, hhalt]) r))

theorem step_of_decode_error {s : State} {r : Request} {rest : List HostEvent} {e : DecodeError}
    (hport : s.port = .transaction r :: rest) (hrun : s.fault.halt = false) (hdecode : decode r = .error e) :
    step s = .next ((s.setPort rest).raise .illegalCommand r.cw) :=
  step_of_accept_done ((accept_of_port_transaction hport).trans (by simp [State.acceptRequest, hrun, hdecode]))

theorem step_of_decode_ok {s : State} {r : Request} {rest : List HostEvent} {i : Instr}
    (hport : s.port = .transaction r :: rest) (hrun : s.fault.halt = false) (hdecode : decode r = .ok i) :
    step s = exec i (s.setPort rest) :=
  step_of_accept_run ((accept_of_port_transaction hport).trans (by simp [State.acceptRequest, hrun, hdecode]))

theorem step_cases (s : State) : StepCase s (step s) := by
  match hport : s.port with
  | [] =>
    rw [step_of_waiting hport]
    exact .waiting hport
  | .reset :: rest =>
    rw [step_of_reset hport]
    exact .reset rest hport
  | .concurrent r₁ r₂ :: rest =>
    rw [concurrentTransactionsRefused s r₁ r₂ rest hport]
    exact .concurrent r₁ r₂ rest hport
  | .transaction r :: rest =>
    cases hhalt : s.fault.halt with
    | true =>
      rw [step_of_halted hport hhalt]
      exact .halted r rest hport hhalt
    | false =>
      cases hdecode : decode r with
      | error e =>
        rw [step_of_decode_error hport hhalt hdecode]
        exact .illegal r rest e hport hhalt hdecode
      | ok i =>
        rw [step_of_decode_ok hport hhalt hdecode]
        exact .command r rest i hport hhalt hdecode rfl

/-- Settles O5. -/
theorem stepRunsDecodedCommand : Obligations.StepRunsDecodedCommand := by
  intro s r rest i hrun hport hdecode
  rw [step_of_decode_ok hport hrun hdecode, setPort_eq]

/-- Settles O9. -/
theorem nothingPresentedNothingHappens : Obligations.NothingPresentedNothingHappens := fun _ => step_of_waiting

/-- Settles O11. -/
theorem resetValues : Obligations.ResetValues := ⟨rfl, rfl, rfl, rfl, rfl, rfl, rfl⟩

/-- Settles O10: the units and FAULT become those of `State.reset`, whose values `resetValues` gives. -/
theorem resetInputClears : Obligations.ResetInputClears := by
  intro s rest hport
  obtain ⟨hsm, hpair, harr, hquad, hoct, hent, hfault⟩ := resetValues
  exact ⟨_, step_of_reset hport, by simpa using hsm, by simpa using hpair, by simpa using harr, by simpa using hquad,
    by simpa using hoct, by simpa using hent, by simpa using hfault, by simp [State.reset, State.resetWith],
    by simp, by simp, by simp, by simp⟩

/-- Settles O13: a halted CORE waits or answers that it is halted. -/
theorem onlyResetLeavesHalted : Obligations.OnlyResetLeavesHalted := by
  intro s t hstep hhalt hnoreset
  have hcase := step_cases s
  rw [hstep] at hcase
  cases hcase with
  | waiting => exact ⟨rfl, rfl, rfl, rfl, rfl, rfl, rfl, rfl, rfl, rfl⟩
  | halted => simp
  | illegal r rest e hport hrun => simp [hhalt] at hrun
  | command r rest i hport hrun => simp [hhalt] at hrun
  | reset rest hport => exact absurd hport (hnoreset rest)

/-- Settles O14: `Laws.exec_outcome`, its six causes and `NOT_CONSTRUCTED` written as codes. -/
theorem commandsAnswerOrFault : Obligations.CommandsAnswerOrFault := by
  intro i s
  obtain ⟨-, hexec⟩ | ⟨-, ⟨t, w, hexec, -, hfault, -⟩ | ⟨-, c, hc, hexec⟩⟩ := Laws.exec_outcome i s
  · exact ⟨_, hexec, .inr ⟨0x11#8, by decide, raise_eq s .notConstructed _⟩⟩
  · exact ⟨_, hexec, .inl ⟨w, State.answer_response t w, by rw [State.answer_fault, hfault]⟩⟩
  · have hcode : ∀ c ∈ [Cause.invalidState, .invalidPointer, .invalidDomain, .domainExceeded, .counterOverflow,
        .tableFull], c.code ∈ [0x01#8, 0x02#8, 0x03#8, 0x04#8, 0x11#8, 0x12#8, 0x13#8] := by decide
    exact ⟨_, hexec, .inr ⟨c.code, hcode c hc, raise_eq s c _⟩⟩

theorem exec_answers (i : Instr) (s : State) :
    ∃ t a, exec i s = .next t ∧ t.port = s.port ∧ t.response = some a ∧ (a.status ≠ .ok → a.result = none) := by
  obtain ⟨-, hraise⟩ | ⟨-, ⟨t, w, hanswer, -, -, hport, -⟩ | ⟨-, c, -, hraise⟩⟩ := Laws.exec_outcome i s
  · exact ⟨_, _, hraise, by simp, State.raise_response _ _ _, fun _ => rfl⟩
  · exact ⟨_, _, hanswer, by simpa using hport, State.answer_response _ _, fun h => absurd rfl h⟩
  · exact ⟨_, _, hraise, by simp, State.raise_response _ _ _, fun _ => rfl⟩

/-- Settles O8: halted, illegal or executed, the transaction is taken and answered. -/
theorem everyTransactionAnswered : Obligations.EveryTransactionAnswered := by
  intro s r rest hport
  cases hhalt : s.fault.halt with
  | true => exact ⟨_, _, step_of_halted hport hhalt, by simp, State.answerHalted_response _, fun _ => rfl⟩
  | false =>
    cases hdecode : decode r with
    | error e =>
      exact ⟨_, _, step_of_decode_error hport hhalt hdecode, by simp, State.raise_response _ _ _, fun _ => rfl⟩
    | ok i =>
      obtain ⟨t, a, hexec, htaken, hanswered⟩ := exec_answers i (s.setPort rest)
      exact ⟨t, a, (step_of_decode_ok hport hhalt hdecode).trans hexec, by simpa using htaken, hanswered⟩

end Sys2Proof.Machine
end

section
/-! What an accepted command leaves in the registers, said once: which unit it writes, that the unit is then constructed,
and what is known of the words it writes. The invariants of a step are read off this. -/

namespace Sys2Proof.Machine

/-- `Leaves s t`: a command answering OK may leave the registers of `t` where it found those of `s`. A bank's words are
known to be valid (R65) where the shift amounts are in range and the banks were valid before. -/
inductive Leaves : State → State → Prop
  | same {s : State} : Leaves s s
  | draws {s : State} (n : Nat) : Leaves s (s.setDraws n)
  | host {s t : State} (h : Leaves s.takeHrand.2 t) : Leaves s t
  | sm {s : State} (x : Word) : Leaves s (s.setSm { x := x, v := true })
  | pair {s : State} {w : PairWords} (hw : s.params.wf → s.banksNonZero → pairValid w = true) :
      Leaves s (s.setPair { s := w, v := true })
  | arr {s : State} {a : ArrWords} {p : BitVec 4} (hw : s.params.wf → s.banksNonZero → arrValid a = true) :
      Leaves s (s.setArr { a := a, p := p, v := true })
  | quad {s : State} {w : QuadWords} (hw : s.params.wf → s.banksNonZero → quadValid w = true) :
      Leaves s (s.setQuad { s := w, v := true })
  | oct {s : State} {w : OctWords} (hw : s.params.wf → s.banksNonZero → octValid w = true) :
      Leaves s (s.setOct { s := w, v := true })
  | entInit {s : State} {d : BitVec 63} (hd : d ≠ 0) : Leaves s (s.setEnt { d := d, t := [], n := 0, v := true })
  | entAdd {s : State} (k : Word) (hv : s.ent.v = true) (hroom : ¬tableFullFor s.params s.ent.t k = true)
      (hn : s.ent.n ≠ BitVec.allOnes 64) :
      Leaves s (s.setEnt { s.ent with t := tableBump s.ent.t k, n := s.ent.n + 1 })

/-- `o` answers OK with registers that `Leaves` allows, or raises a fault. -/
def LeavesOrRaises (s : State) (o : Result) : Prop :=
  (∃ t w, o = .next (t.answer w) ∧ Leaves s t) ∨ ∃ c cw, o = .next (s.raise c cw)

theorem leavesOrRaises_answer {s t : State} (h : Leaves s t) (w : Option Word) :
    LeavesOrRaises s (.next (t.answer w)) := .inl ⟨t, w, rfl, h⟩

theorem leavesOrRaises_raise (s : State) (c : Cause) (cw : CmdWord) : LeavesOrRaises s (.next (s.raise c cw)) :=
  .inr ⟨c, cw, rfl⟩

theorem leavesOrRaises_whenConstructed {s : State} {v : Bool} {o : Opcode} {rest : Result}
    (h : v = true → LeavesOrRaises s rest) : LeavesOrRaises s (s.whenConstructed v o rest) := by
  cases v with
  | false => exact leavesOrRaises_raise s _ _
  | true => exact h rfl

/-! The draws: the update keeps valid words valid (R20). -/

theorem pairDraw_leaves (o : Opcode) (f : PairWords → Word) (s : State) : LeavesOrRaises s (pairDraw o f s) := by
  refine leavesOrRaises_whenConstructed fun hv => ?_
  simp only [hv]
  exact leavesOrRaises_answer (.pair fun _ hbanks => pairValid_pairUpdate (hbanks.1 hv)) _

theorem arrDraw_leaves (o : Opcode) (f : Word → Word) (s : State) : LeavesOrRaises s (arrDraw o f s) := by
  refine leavesOrRaises_whenConstructed fun hv => ?_
  rw [arrUpdate_eq, hv]
  exact leavesOrRaises_answer (.arr fun _ hbanks => arrValid_arrUpdate (hbanks.2.1 hv)) _

theorem quadDraw_leaves (o : Opcode) (f : QuadWords → Word) (s : State) : LeavesOrRaises s (quadDraw o f s) := by
  refine leavesOrRaises_whenConstructed fun hv => ?_
  simp only [hv]
  exact leavesOrRaises_answer (.quad fun _ hbanks => quadValid_quadUpdate (hbanks.2.2.1 hv)) _

theorem octDraw_leaves (o : Opcode) (f : OctWords → Word) (s : State) : LeavesOrRaises s (octDraw o f s) := by
  refine leavesOrRaises_whenConstructed fun hv => ?_
  simp only [hv]
  exact leavesOrRaises_answer (.oct fun _ hbanks => octValid_octUpdate (hbanks.2.2.2 hv)) _

theorem exec_draw_leaves {i : Instr} (hi : isDraw i = true) (s : State) : LeavesOrRaises s (exec i s) := by
  obtain ⟨-, f, hexec⟩ | ⟨-, f, hexec⟩ | ⟨-, f, hexec⟩ | ⟨-, f, hexec⟩ := exec_draw_cases hi
  · exact hexec s ▸ pairDraw_leaves _ f s
  · exact hexec s ▸ arrDraw_leaves _ f s
  · exact hexec s ▸ quadDraw_leaves _ f s
  · exact hexec s ▸ octDraw_leaves _ f s

/-! The seeded constructors: two words of one expander are not both 0 (R70). -/

theorem pairValid_pairOfSeed {p : Params} (hp : p.wf) (x : Word) : pairValid (pairOfSeed p x) = true := by
  obtain ⟨i, hi, hne⟩ := exists_expanderWord_ne_zero hp (le_refl 2) x
  rw [pairValid_eq_true, pairOfSeed, seedWord_eq_expanderWord, seedWord_eq_expanderWord]
  interval_cases i
  · exact .inl hne
  · exact .inr hne

theorem quadValid_quadOfSeed {p : Params} (hp : p.wf) (x : Word) : quadValid (quadOfSeed p x) = true := by
  have h := (pairValid_eq_true _).mp (pairValid_pairOfSeed hp x)
  exact (quadValid_eq_true _).mpr (h.imp_right .inl)

theorem octValid_octOfSeed {p : Params} (hp : p.wf) (x : Word) : octValid (octOfSeed p x) = true := by
  have h := (pairValid_eq_true _).mp (pairValid_pairOfSeed hp x)
  exact (octValid_eq_true _).mpr (h.imp_right .inl)

theorem arrValid_arrOfSeed {p : Params} (hp : p.wf) (x : Word) : arrValid (arrOfSeed p x) = true := by
  have h := (pairValid_eq_true _).mp (pairValid_pairOfSeed hp x)
  exact (arrValid_eq_true _).mpr (h.elim (fun h => ⟨0, h⟩) fun h => ⟨1, h⟩)

theorem seededState_leaves (c : GenClass) (x : Word) (s : State) :
    ∃ t, seededState c x s = t.answer none ∧ Leaves s t := by
  cases c with
  | pair => exact ⟨_, rfl, .pair fun hp _ => pairValid_pairOfSeed hp x⟩
  | arr => exact ⟨_, rfl, .arr fun hp _ => arrValid_arrOfSeed hp _⟩
  | quad => exact ⟨_, rfl, .quad fun hp _ => quadValid_quadOfSeed hp x⟩
  | oct => exact ⟨_, rfl, .oct fun hp _ => octValid_octOfSeed hp x⟩

theorem exec_seed_leaves (c : GenClass) (x : Word) (s : State) : LeavesOrRaises s (exec (seedCommand c x) s) := by
  obtain ⟨t, ht, hleaves⟩ := seededState_leaves c x s
  rw [exec_seedCommand, ht]
  exact leavesOrRaises_answer hleaves _

theorem exec_host_leaves (c : GenClass) (s : State) : LeavesOrRaises s (exec (hostCommand c) s) := by
  obtain ⟨t, ht, hleaves⟩ := seededState_leaves c s.takeHrand.1 s.takeHrand.2
  rw [exec_hostCommand, ht]
  exact leavesOrRaises_answer (.host hleaves) _

/-! The other commands. -/

theorem execRotl_leaves (x k : Word) (s : State) : LeavesOrRaises s (execRotl x k s) := by
  unfold execRotl
  split
  · exact leavesOrRaises_answer .same _
  · exact leavesOrRaises_answer (.draws _) _

theorem execPairInit_leaves (w : PairWords) (s : State) : LeavesOrRaises s (execPairInit w s) := by
  unfold execPairInit
  split
  · exact leavesOrRaises_answer (.pair fun _ _ => ‹_›) _
  · exact leavesOrRaises_raise s _ _

theorem execArrInit_leaves (p : Word) (a : ArrWords) (s : State) : LeavesOrRaises s (execArrInit p a s) := by
  unfold execArrInit
  split
  · exact leavesOrRaises_raise s _ _
  · split
    · exact leavesOrRaises_answer (.arr fun _ _ => ‹_›) _
    · exact leavesOrRaises_raise s _ _

theorem execQuadInit_leaves (w : QuadWords) (s : State) : LeavesOrRaises s (execQuadInit w s) := by
  unfold execQuadInit
  split
  · exact leavesOrRaises_answer (.quad fun _ _ => ‹_›) _
  · exact leavesOrRaises_raise s _ _

theorem execOctInit_leaves (w : OctWords) (s : State) : LeavesOrRaises s (execOctInit w s) := by
  unfold execOctInit
  split
  · exact leavesOrRaises_answer (.oct fun _ _ => ‹_›) _
  · exact leavesOrRaises_raise s _ _

theorem execEntInit_leaves (x : Word) (s : State) : LeavesOrRaises s (execEntInit x s) := by
  rcases le_or_gt x.toInt 0 with hx | hx
  · rw [execEntInit_of_toInt_nonpos hx]
    exact leavesOrRaises_raise s _ _
  · rw [execEntInit_of_toInt_pos hx]
    refine leavesOrRaises_answer (.entInit fun hzero => ?_) _
    have hvalue := toNat_setWidth_of_toInt_pos hx
    rw [hzero] at hvalue
    exact hx.ne hvalue

theorem execEntAdd_leaves (k : Word) (s : State) : LeavesOrRaises s (execEntAdd k s) := by
  refine leavesOrRaises_whenConstructed fun hv => ?_
  split
  · exact leavesOrRaises_raise s _ _
  · split
    · exact leavesOrRaises_raise s _ _
    · exact leavesOrRaises_answer (.entAdd k hv ‹_› ‹_›) _

theorem entScore_leaves (o : Opcode) (f : BitVec 63 → Table → Word) (s : State) :
    LeavesOrRaises s (entScore o f s) := by
  refine leavesOrRaises_whenConstructed fun _ => ?_
  split
  · exact leavesOrRaises_raise s _ _
  · split
    · exact leavesOrRaises_answer (.draws _) _
    · exact leavesOrRaises_answer .same _

theorem exec_leaves (i : Instr) (s : State) : LeavesOrRaises s (exec i s) := by
  cases i with
  | rotl x k => exact execRotl_leaves x k s
  | smInit x => exact leavesOrRaises_answer (.sm x) _
  | smNext =>
    refine leavesOrRaises_whenConstructed fun hv => ?_
    simp only [hv]
    exact leavesOrRaises_answer (.sm _) _
  | smEq | pairEq | arrEq | quadEq | octEq =>
    exact leavesOrRaises_whenConstructed fun _ => leavesOrRaises_answer .same _
  | pairInit w => exact execPairInit_leaves w s
  | arrInit p a => exact execArrInit_leaves p a s
  | quadInit w => exact execQuadInit_leaves w s
  | octInit w => exact execOctInit_leaves w s
  | pairSeed x => exact exec_seed_leaves .pair x s
  | arrSeed x => exact exec_seed_leaves .arr x s
  | quadSeed x => exact exec_seed_leaves .quad x s
  | octSeed x => exact exec_seed_leaves .oct x s
  | pairHost => exact exec_host_leaves .pair s
  | arrHost => exact exec_host_leaves .arr s
  | quadHost => exact exec_host_leaves .quad s
  | octHost => exact exec_host_leaves .oct s
  | pairNextP | pairNextPP | pairNextSS | arrNextSS | arrNextS | quadNextP | quadNextPP | quadNextSS | octNextP
  | octNextPP | octNextSS => exact exec_draw_leaves rfl s
  | entInit x => exact execEntInit_leaves x s
  | entAdd k => exact execEntAdd_leaves k s
  | entEntropy | entEfficiency => exact entScore_leaves _ _ s

end Sys2Proof.Machine
end

section
/-! R21: nothing but reset clears a valid bit. -/

namespace Sys2Proof.Machine

/-- Every valid bit that is 1 in `s` is 1 in `t`. -/
def keepsValid (s t : State) : Prop :=
  (s.sm.v = true → t.sm.v = true) ∧ (s.pair.v = true → t.pair.v = true) ∧ (s.arr.v = true → t.arr.v = true) ∧
    (s.quad.v = true → t.quad.v = true) ∧ (s.oct.v = true → t.oct.v = true) ∧ (s.ent.v = true → t.ent.v = true)

theorem keepsValid_takeHrand {s t : State} (h : keepsValid s.takeHrand.2 t) : keepsValid s t := by
  obtain ⟨ws, n, hframe⟩ := takeHrand_frame s
  rw [hframe] at h
  simpa [keepsValid] using h

theorem keepsValid_of_leaves {s t : State} (h : Leaves s t) : keepsValid s t := by
  induction h with
  | host _ ih => exact keepsValid_takeHrand ih
  | same | draws | sm | pair | arr | quad | oct | entInit | entAdd => simp [keepsValid]

theorem exec_keepsValid {i : Instr} {s t : State} (h : exec i s = .next t) : keepsValid s t := by
  obtain ⟨u, w, hanswer, hleaves⟩ | ⟨c, cw, hraise⟩ := exec_leaves i s
  · obtain rfl := Host.Outcome.next.inj (h.symm.trans hanswer)
    simpa [keepsValid] using keepsValid_of_leaves hleaves
  · obtain rfl := Host.Outcome.next.inj (h.symm.trans hraise)
    simp [keepsValid]

/-- Settles O55: a command keeps them (`Leaves`), and what else a step does, reset apart, writes no unit. -/
theorem validBitsAreKept : Obligations.ValidBitsAreKept := by
  intro s t hstep hnoreset
  have hcase := step_cases s
  rw [hstep] at hcase
  cases hcase with
  | waiting => exact ⟨id, id, id, id, id, id⟩
  | halted => simp
  | illegal => simp
  | command r rest i _ _ _ hexec => simpa [keepsValid] using exec_keepsValid hexec
  | reset rest hport => exact absurd hport (hnoreset rest)

end Sys2Proof.Machine
end

section
/-! The invariant of a step (R18, R22, R24, R42): what it says of the registers, of FAULT and of the response. -/

namespace Sys2Proof.Machine

/-- The part of the invariant that speaks of the units and the parameters. -/
def State.dataInv (s : State) : Prop := s.params.wf ∧ s.banksNonZero ∧ s.estimatorConsistent

/-- The part of the invariant that speaks of FAULT and the latest response. -/
def State.statusInv (s : State) : Prop := s.faultConsistent ∧ s.responseConsistent

theorem inv_iff (s : State) : s.Inv ↔ s.dataInv ∧ s.statusInv := by
  simp only [State.Inv, State.dataInv, State.statusInv, and_assoc]

/-- The data part sees the five units it speaks of and the parameters only. -/
theorem dataInv_congr {s t : State} (hpair : t.pair = s.pair) (harr : t.arr = s.arr) (hquad : t.quad = s.quad)
    (hoct : t.oct = s.oct) (hent : t.ent = s.ent) (hparams : t.params = s.params) : t.dataInv ↔ s.dataInv := by
  simp only [State.dataInv, State.banksNonZero, State.estimatorConsistent, hpair, harr, hquad, hoct, hent, hparams]

theorem dataInv_answer {s : State} (w : Option Word) : (s.answer w).dataInv ↔ s.dataInv :=
  dataInv_congr (by simp) (by simp) (by simp) (by simp) (by simp) (by simp)

theorem dataInv_raise {s : State} (c : Cause) (cw : CmdWord) : (s.raise c cw).dataInv ↔ s.dataInv :=
  dataInv_congr (by simp) (by simp) (by simp) (by simp) (by simp) (by simp)

theorem dataInv_answerHalted {s : State} : s.answerHalted.dataInv ↔ s.dataInv :=
  dataInv_congr (by simp) (by simp) (by simp) (by simp) (by simp) (by simp)

theorem dataInv_setPort {s : State} (es : List HostEvent) : (s.setPort es).dataInv ↔ s.dataInv :=
  dataInv_congr (by simp) (by simp) (by simp) (by simp) (by simp) (by simp)

theorem dataInv_setDraws {s : State} (n : Nat) : (s.setDraws n).dataInv ↔ s.dataInv :=
  dataInv_congr (by simp) (by simp) (by simp) (by simp) (by simp) (by simp)

theorem dataInv_setSm {s : State} (u : SmUnit) : (s.setSm u).dataInv ↔ s.dataInv :=
  dataInv_congr (by simp) (by simp) (by simp) (by simp) (by simp) (by simp)

theorem dataInv_takeHrand {s : State} : s.takeHrand.2.dataInv ↔ s.dataInv := by
  obtain ⟨ws, n, hframe⟩ := takeHrand_frame s
  rw [hframe]
  exact dataInv_congr (by simp) (by simp) (by simp) (by simp) (by simp) (by simp)

/-! The estimator (R23, R24, R128). -/

theorem estimatorConsistent_entInit {s : State} {d : BitVec 63} (hd : d ≠ 0) :
    (s.setEnt { d := d, t := [], n := 0, v := true }).estimatorConsistent := by
  simpa [State.estimatorConsistent, Table.wf, tableTotal] using hd

/-- The table does not outgrow the capacity: a new key is accepted below it only (R117, R128). -/
theorem length_tableBump_le_capacity {p : Params} {t : Table} {k : Word} (hsorted : t.Pairwise (fun e f => e.1 < f.1))
    (hroom : ¬tableFullFor p t k = true) (hcap : ∀ c ∈ p.entCapacity, t.length ≤ c) :
    ∀ c ∈ p.entCapacity, (tableBump t k).length ≤ c := by
  intro c hc
  have hle : t.length ≤ c := hcap c hc
  rw [length_tableBump k hsorted]
  cases hhas : tableHas t k with
  | true => simpa using hle
  | false =>
    have hne : p.entCapacity ≠ some t.length := fun h => hroom ((tableFullFor_iff p t k).mpr ⟨hhas, h⟩)
    have hne' : t.length ≠ c := fun h => hne (h ▸ hc)
    simp only [Bool.false_eq_true, if_false]
    omega

theorem estimatorConsistent_entAdd {s : State} {k : Word} (hroom : ¬tableFullFor s.params s.ent.t k = true)
    (hn : s.ent.n ≠ BitVec.allOnes 64) (h : s.estimatorConsistent) :
    (s.setEnt { s.ent with t := tableBump s.ent.t k, n := s.ent.n + 1 }).estimatorConsistent := by
  obtain ⟨hwf, htotal, hdomain, hcap⟩ := h
  have hn' : s.ent.n.toNat ≠ 2 ^ 64 - 1 := mt (eq_allOnes_iff _).mpr hn
  have hlt : tableTotal s.ent.t < 2 ^ 64 - 1 := by have := s.ent.n.isLt; omega
  refine ⟨?_, ?_, ?_, ?_⟩
  · simpa using tableBump_wf k hlt hwf
  · simp only [State.setEnt_ent, tableTotal_tableBump k hlt, htotal, BitVec.toNat_add]
    exact (Nat.mod_eq_of_lt (by simp; omega)).symm
  · simpa using hdomain
  · simpa using length_tableBump_le_capacity hwf.1 hroom hcap

theorem dataInv_of_leaves {s t : State} (h : Leaves s t) (hs : s.dataInv) : t.dataInv := by
  induction h with
  | same => exact hs
  | draws n => exact (dataInv_setDraws n).mpr hs
  | host _ ih => exact ih (dataInv_takeHrand.mpr hs)
  | sm x => exact (dataInv_setSm _).mpr hs
  | pair hw =>
    obtain ⟨hparams, hbanks, hent⟩ := hs
    exact ⟨by simpa using hparams, by simpa [State.banksNonZero, hw hparams hbanks] using hbanks.2,
      by simpa [State.estimatorConsistent] using hent⟩
  | arr hw =>
    obtain ⟨hparams, hbanks, hent⟩ := hs
    obtain ⟨hpair, -, hrest⟩ := id hbanks
    exact ⟨by simpa using hparams, by simpa [State.banksNonZero, hw hparams hbanks] using ⟨hpair, hrest⟩,
      by simpa [State.estimatorConsistent] using hent⟩
  | quad hw =>
    obtain ⟨hparams, hbanks, hent⟩ := hs
    obtain ⟨hpair, harr, -, hoct⟩ := id hbanks
    exact ⟨by simpa using hparams, by simpa [State.banksNonZero, hw hparams hbanks] using ⟨hpair, harr, hoct⟩,
      by simpa [State.estimatorConsistent] using hent⟩
  | oct hw =>
    obtain ⟨hparams, hbanks, hent⟩ := hs
    obtain ⟨hpair, harr, hquad, -⟩ := id hbanks
    exact ⟨by simpa using hparams, by simpa [State.banksNonZero, hw hparams hbanks] using ⟨hpair, harr, hquad⟩,
      by simpa [State.estimatorConsistent] using hent⟩
  | entInit hd =>
    obtain ⟨hparams, hbanks, -⟩ := hs
    exact ⟨by simpa using hparams, by simpa [State.banksNonZero] using hbanks, estimatorConsistent_entInit hd⟩
  | entAdd k _ hroom hn =>
    obtain ⟨hparams, hbanks, hent⟩ := hs
    exact ⟨by simpa using hparams, by simpa [State.banksNonZero] using hbanks, estimatorConsistent_entAdd hroom hn hent⟩

/-! FAULT and the response (R22, R42, R132, R133). -/

theorem mem_all_cause (c : Cause) : c ∈ Cause.all := by cases c <;> decide

theorem statusInv_answer {s : State} (hrun : s.fault.halt = false) (hfault : s.faultConsistent) (w : Option Word) :
    (s.answer w).statusInv :=
  ⟨by simpa [State.faultConsistent] using hfault, by simp [State.responseConsistent, hrun]⟩

theorem statusInv_raise (s : State) (c : Cause) (cw : CmdWord) : (s.raise c cw).statusInv := by
  refine ⟨?_, by simp [State.responseConsistent]⟩
  simpa [State.faultConsistent] using ⟨c, mem_all_cause c, rfl⟩

theorem statusInv_answerHalted {s : State} (hhalt : s.fault.halt = true) (hfault : s.faultConsistent) :
    s.answerHalted.statusInv :=
  ⟨by simpa [State.faultConsistent] using hfault, by simp [State.responseConsistent, hhalt]⟩

theorem statusInv_setPort {s : State} (es : List HostEvent) : (s.setPort es).statusInv ↔ s.statusInv := by
  simp [State.statusInv, State.faultConsistent, State.responseConsistent]

theorem takeHrand_fault (s : State) : s.takeHrand.2.fault = s.fault := by
  obtain ⟨ws, n, hframe⟩ := takeHrand_frame s
  simp [hframe]

theorem fault_of_leaves {s t : State} (h : Leaves s t) : t.fault = s.fault := by
  induction h with
  | same => rfl
  | host _ ih => exact ih.trans (takeHrand_fault _)
  | draws | sm | pair | arr | quad | oct | entInit | entAdd => simp

/-! The whole invariant. -/

theorem exec_keeps_inv {i : Instr} {s t : State} (hrun : s.fault.halt = false) (hs : s.Inv) (h : exec i s = .next t) :
    t.Inv := by
  obtain ⟨hdata, hstatus⟩ := (inv_iff s).mp hs
  refine (inv_iff t).mpr ?_
  obtain ⟨u, w, hanswer, hleaves⟩ | ⟨c, cw, hraise⟩ := exec_leaves i s
  · obtain rfl := Host.Outcome.next.inj (h.symm.trans hanswer)
    have hfault : u.fault = s.fault := fault_of_leaves hleaves
    have hconsistent : u.faultConsistent := by simpa [State.faultConsistent, hfault] using hstatus.1
    exact ⟨(dataInv_answer w).mpr (dataInv_of_leaves hleaves hdata),
      statusInv_answer (by rw [hfault, hrun]) hconsistent w⟩
  · obtain rfl := Host.Outcome.next.inj (h.symm.trans hraise)
    exact ⟨(dataInv_raise c cw).mpr hdata, statusInv_raise s c cw⟩

/-- No bank is constructed, the table is empty, FAULT is clear and nothing has been answered. -/
theorem resetWith_inv {p : Params} (hp : p.wf) : (State.resetWith p).Inv := by
  refine ⟨hp, ?_, ?_, ?_, ?_⟩
  · simp [State.banksNonZero, State.resetWith]
  · simp [State.estimatorConsistent, State.resetWith, Table.wf, tableTotal]
  · simp [State.faultConsistent, State.resetWith]
  · simp [State.responseConsistent, State.resetWith]

theorem assertReset_inv {s : State} (hs : s.Inv) : s.assertReset.Inv := by
  have hreset := resetWith_inv hs.1
  simpa [State.assertReset, State.Inv, State.banksNonZero, State.estimatorConsistent, State.faultConsistent,
    State.responseConsistent] using hreset

/-- Settles O56: by the event at the port; a command's registers are those `Leaves` allows. -/
theorem stepKeepsInvariant : Obligations.StepKeepsInvariant := by
  intro s t hs hstep
  have hport (rest : List HostEvent) : (s.setPort rest).Inv := by
    rw [inv_iff, dataInv_setPort, statusInv_setPort, ← inv_iff]
    exact hs
  have hcase := step_cases s
  rw [hstep] at hcase
  cases hcase with
  | waiting => exact hs
  | halted r rest _ hhalt =>
    obtain ⟨hdata, hstatus⟩ := (inv_iff _).mp (hport rest)
    exact (inv_iff _).mpr ⟨dataInv_answerHalted.mpr hdata, statusInv_answerHalted (by simpa using hhalt) hstatus.1⟩
  | illegal r rest =>
    obtain ⟨hdata, -⟩ := (inv_iff _).mp (hport rest)
    exact (inv_iff _).mpr ⟨(dataInv_raise _ _).mpr hdata, statusInv_raise _ _ _⟩
  | command r rest i _ hrun _ hexec => exact exec_keeps_inv (by simpa using hrun) (hport rest) hexec
  | reset rest => exact assertReset_inv (hport rest)

/-- Settles O57: the default shift amounts are in range. -/
theorem resetMeetsInvariant : Obligations.ResetMeetsInvariant := resetWith_inv (by decide)

end Sys2Proof.Machine
end

section
/-! Streams of NEXT commands (R94, R100, R106, R112): on a constructed bank each leaves the same updated bank and
answers a word. -/

namespace Sys2Proof.Machine

/-- What a NEXT command of unit `u` leaves of the registers, whatever its scramble. -/
def drawnState (u : UnitName) (s : State) : State :=
  match u with
  | .pair => s.setPair { s := pairUpdate s.pair.s, v := true }
  | .arr => s.setArr { a := (arrUpdate s.arr).a, p := s.arr.p + 1, v := true }
  | .quad => s.setQuad { s := quadUpdate s.quad.s, v := true }
  | .oct => s.setOct { s := octUpdate s.oct.s, v := true }
  | .rot | .sm | .ent => s

/-- The valid bit a NEXT command reads is that of its unit's bank. -/
theorem validBit?_of_isDraw {i : Instr} (hi : isDraw i = true) (s : State) :
    (unitOf i = .pair → validBit? s i = some s.pair.v) ∧ (unitOf i = .arr → validBit? s i = some s.arr.v) ∧
      (unitOf i = .quad → validBit? s i = some s.quad.v) ∧ (unitOf i = .oct → validBit? s i = some s.oct.v) := by
  cases i <;> simp_all [isDraw, unitOf, validBit?]

theorem exec_draw_of_constructed {i : Instr} {s : State} (hi : isDraw i = true) (hv : validBit? s i = some true) :
    ∃ w, exec i s = .next ((drawnState (unitOf i) s).answer (some w)) := by
  obtain ⟨hpair, harr, hquad, hoct⟩ := validBit?_of_isDraw hi s
  obtain ⟨hu, f, hexec⟩ | ⟨hu, f, hexec⟩ | ⟨hu, f, hexec⟩ | ⟨hu, f, hexec⟩ := exec_draw_cases hi
  · have hbit : s.pair.v = true := Option.some.inj ((hpair hu).symm.trans hv)
    exact ⟨_, by rw [hexec, pairDraw_of_constructed hbit, hu, drawnState, answer_setPair]⟩
  · have hbit : s.arr.v = true := Option.some.inj ((harr hu).symm.trans hv)
    exact ⟨_, by rw [hexec, arrDraw_of_constructed hbit, hu, drawnState, answer_setArr]⟩
  · have hbit : s.quad.v = true := Option.some.inj ((hquad hu).symm.trans hv)
    exact ⟨_, by rw [hexec, quadDraw_of_constructed hbit, hu, drawnState, answer_setQuad]⟩
  · have hbit : s.oct.v = true := Option.some.inj ((hoct hu).symm.trans hv)
    exact ⟨_, by rw [hexec, octDraw_of_constructed hbit, hu, drawnState, answer_setOct]⟩

theorem validBit?_eq_of_unitOf_eq {i j : Instr} (hi : isDraw i = true) (hj : isDraw j = true)
    (hunit : unitOf i = unitOf j) (s : State) : validBit? s i = validBit? s j := by
  obtain ⟨hpair, harr, hquad, hoct⟩ := validBit?_of_isDraw hi s
  obtain ⟨hpair', harr', hquad', hoct'⟩ := validBit?_of_isDraw hj s
  obtain ⟨hu, -⟩ | ⟨hu, -⟩ | ⟨hu, -⟩ | ⟨hu, -⟩ := exec_draw_cases hi
  · rw [hpair hu, hpair' (hunit ▸ hu)]
  · rw [harr hu, harr' (hunit ▸ hu)]
  · rw [hquad hu, hquad' (hunit ▸ hu)]
  · rw [hoct hu, hoct' (hunit ▸ hu)]

/-- Settles O42: the state left but for the word is `drawnState` of the unit. -/
theorem scramblesShareTheUpdate : Obligations.ScramblesShareTheUpdate := by
  intro i j s hi hj hunit hv
  have hv' : validBit? s j = some true := by rw [← validBit?_eq_of_unitOf_eq hi hj hunit, hv]
  obtain ⟨w, hw⟩ := exec_draw_of_constructed hi hv
  obtain ⟨w', hw'⟩ := exec_draw_of_constructed hj hv'
  exact ⟨drawnState (unitOf i) s, w, w', by rw [hw, answer_eq], by rw [hw', answer_eq, hunit]⟩

theorem drawnState_sameOutside (u : UnitName) (s : State) : sameOutside u s (drawnState u s) := by
  cases u <;> simp [sameOutside, drawnState]

theorem sameOutside_trans {u : UnitName} {s t r : State} (hst : sameOutside u s t) (htr : sameOutside u t r) :
    sameOutside u s r := by
  obtain ⟨hsm, hpair, harr, hquad, hoct, hent⟩ := hst
  obtain ⟨hsm', hpair', harr', hquad', hoct', hent'⟩ := htr
  exact ⟨fun h => (hsm' h).trans (hsm h), fun h => (hpair' h).trans (hpair h), fun h => (harr' h).trans (harr h),
    fun h => (hquad' h).trans (hquad h), fun h => (hoct' h).trans (hoct h), fun h => (hent' h).trans (hent h)⟩

theorem sameOutside_answer {u : UnitName} {s t : State} (w : Option Word) :
    sameOutside u s (t.answer w) ↔ sameOutside u s t := by simp [sameOutside]

/-- A valid bit that reads 1 still does where no valid bit was cleared. -/
theorem validBit?_of_keepsValid {s t : State} (h : keepsValid s t) {i : Instr} (hv : validBit? s i = some true) :
    validBit? t i = some true := by
  obtain ⟨hsm, hpair, harr, hquad, hoct, hent⟩ := h
  cases i <;> simp_all [validBit?]

/-- Settles O43, by induction on the stream: each draw answers a word and leaves its bank constructed. -/
theorem drawStreamsNeverFail : Obligations.DrawStreamsNeverFail := by
  intro u is
  induction is with
  | nil => exact fun s _ => ⟨rfl, fun r hr => absurd hr List.not_mem_nil, by simp [sameOutside, runCommands]⟩
  | cons i is ih =>
    intro s his
    obtain ⟨⟨hi, rfl, hv⟩, htail⟩ := List.forall_mem_cons.mp his
    obtain ⟨w, hexec⟩ := exec_draw_of_constructed hi hv
    have hkept : keepsValid s ((drawnState (unitOf i) s).answer (some w)) := exec_keepsValid hexec
    obtain ⟨hlength, hwords, hframe⟩ := ih _ fun j hj =>
      ⟨(htail j hj).1, (htail j hj).2.1, validBit?_of_keepsValid hkept (htail j hj).2.2⟩
    have hfirst : sameOutside (unitOf i) s ((drawnState (unitOf i) s).answer (some w)) :=
      (sameOutside_answer _).mpr (drawnState_sameOutside _ s)
    rw [runCommands_cons_of_next hexec]
    refine ⟨congrArg (· + 1) hlength, fun r hr => ?_, sameOutside_trans hfirst hframe⟩
    obtain rfl | hr := List.mem_cons.mp hr
    · exact ⟨w, State.answer_response _ _⟩
    · exact hwords r hr

/-- Settles O31, by induction on the stream: each ARR.NEXT advances the pointer by one modulo 16 (R96). -/
theorem arrPointerTrace : Obligations.ArrPointerTrace := by
  intro is
  induction is with
  | nil => exact fun s _ _ => (Nat.mod_eq_of_lt s.arr.p.isLt).symm
  | cons i is ih =>
    intro s hv his
    obtain ⟨hi, htail⟩ := List.forall_mem_cons.mp his
    obtain ⟨hdraw, hunit, hbit⟩ : isDraw i = true ∧ unitOf i = .arr ∧ validBit? s i = some true := by
      rcases hi with rfl | rfl
      · exact ⟨rfl, rfl, congrArg some hv⟩
      · exact ⟨rfl, rfl, congrArg some hv⟩
    obtain ⟨w, hexec⟩ := exec_draw_of_constructed hdraw hbit
    rw [hunit] at hexec
    have hpointer : ((drawnState .arr s).answer (some w)).arr.p = s.arr.p + 1 := by simp [drawnState]
    rw [runCommands_cons_of_next hexec, ih _ (by simp [drawnState]) htail, hpointer, List.length_cons,
      BitVec.toNat_add, show (1 : BitVec 4).toNat = 1 from rfl]
    omega

end Sys2Proof.Machine
end

section
/-! R116: which commands write the estimator. -/

namespace Sys2Proof.Machine

/-- A command leaves the units but its own as they were, whether it answers or faults. -/
theorem exec_sameOutside {i : Instr} {s t : State} (h : exec i s = .next t) : sameOutside (unitOf i) s t := by
  obtain ⟨-, hraise⟩ | ⟨-, ⟨u, w, hanswer, houtside, -⟩ | ⟨-, c, -, hraise⟩⟩ := Laws.exec_outcome i s
  · obtain rfl := Host.Outcome.next.inj (h.symm.trans hraise)
    simp [sameOutside]
  · obtain rfl := Host.Outcome.next.inj (h.symm.trans hanswer)
    exact (sameOutside_answer w).mpr houtside
  · obtain rfl := Host.Outcome.next.inj (h.symm.trans hraise)
    simp [sameOutside]

theorem ent_of_exec_entAdd {k : Word} {s t : State} (h : exec (.entAdd k) s = .next t) :
    t.ent.d = s.ent.d ∧ t.ent.v = s.ent.v := by
  obtain hadded | ⟨c, hraise⟩ := execEntAdd_cases k s
  · obtain rfl := Host.Outcome.next.inj (h.symm.trans hadded)
    simp [entAdded]
  · obtain rfl := Host.Outcome.next.inj (h.symm.trans hraise)
    simp

theorem ent_of_entScore {o : Opcode} {f : BitVec 63 → Table → Word} {s t : State} (h : entScore o f s = .next t) :
    t.ent = s.ent := by
  cases hv : s.ent.v with
  | false =>
    obtain rfl := Host.Outcome.next.inj (h.symm.trans (entScore_of_unconstructed hv o f))
    rfl
  | true =>
    rcases lt_or_ge s.ent.d.toNat s.ent.t.length with hd | hd
    · obtain rfl := Host.Outcome.next.inj (h.symm.trans (entScore_of_exceeded hv hd o f))
      rfl
    · by_cases hn : s.ent.n = 0
      · obtain rfl := Host.Outcome.next.inj (h.symm.trans (entScore_of_empty hv hd hn o f))
        rfl
      · obtain rfl := Host.Outcome.next.inj (h.symm.trans (entScore_of_scored hv hd hn o f))
        rfl

/-- Settles O50: other units' commands do not touch ENT, its scores do not write it, ENT.ADD keeps the domain. -/
theorem domainIsFixed : Obligations.DomainIsFixed := by
  intro i s t h hinit
  suffices hent : (t.ent.d = s.ent.d ∧ t.ent.v = s.ent.v) ∧ ((∀ x, i ≠ .entAdd x) → t.ent = s.ent) from
    ⟨hent.1.1, hent.1.2, hent.2⟩
  by_cases hunit : unitOf i = .ent
  · cases i with
    | entInit x => exact absurd rfl (hinit x)
    | entAdd k => exact ⟨ent_of_exec_entAdd h, fun hadd => absurd rfl (hadd k)⟩
    | entEntropy | entEfficiency =>
      have hsame : t.ent = s.ent := ent_of_entScore h
      exact ⟨⟨by rw [hsame], by rw [hsame]⟩, fun _ => hsame⟩
    | _ => cases hunit
  · obtain ⟨-, -, -, -, -, hent⟩ := exec_sameOutside h
    have hsame : t.ent = s.ent := hent hunit
    exact ⟨⟨by rw [hsame], by rw [hsame]⟩, fun _ => hsame⟩

end Sys2Proof.Machine
end

section
/-! Noninterference (R29, U10), proved once for any relation between states that a unit's commands respect: they read
nothing outside what the relation fixes, and write the same to both sides. -/

namespace Sys2Proof.Machine

/-- The contents of one unit, to be written. -/
inductive UnitContents where
  | sm (u : SmUnit)
  | pair (b : PairBank)
  | arr (b : ArrBank)
  | quad (b : QuadBank)
  | oct (b : OctBank)
  | ent (u : EntUnit)

def UnitContents.unit : UnitContents → UnitName
  | .sm _ => .sm
  | .pair _ => .pair
  | .arr _ => .arr
  | .quad _ => .quad
  | .oct _ => .oct
  | .ent _ => .ent

/-- The unit's one writer. -/
def State.write (s : State) : UnitContents → State
  | .sm u => s.setSm u
  | .pair b => s.setPair b
  | .arr b => s.setArr b
  | .quad b => s.setQuad b
  | .oct b => s.setOct b
  | .ent u => s.setEnt u

/-- The unit `u` looks the same to its commands in both states: the same valid bit, the same contents where it is 1. -/
def looksSame (u : UnitName) (s t : State) : Prop :=
  match u with
  | .rot => True
  | .sm => agreeWhenValid s.sm.v t.sm.v s.sm t.sm
  | .pair => agreeWhenValid s.pair.v t.pair.v s.pair t.pair
  | .arr => agreeWhenValid s.arr.v t.arr.v s.arr t.arr
  | .quad => agreeWhenValid s.quad.v t.quad.v s.quad t.quad
  | .oct => agreeWhenValid s.oct.v t.oct.v s.oct t.oct
  | .ent => agreeWhenValid s.ent.v t.ent.v s.ent t.ent

/-- `R` fixes all that a command of unit `u` reads, and survives all that one writes. -/
structure Respected (u : UnitName) (R : State → State → Prop) : Prop where
  looks : ∀ {s t}, R s t → looksSame u s t
  hrand : ∀ {s t}, R s t → s.hrand = t.hrand
  draws : ∀ {s t}, R s t → s.draws = t.draws
  params : ∀ {s t}, R s t → s.params = t.params
  answer : ∀ {s t}, R s t → ∀ w, R (s.answer w) (t.answer w)
  raise : ∀ {s t}, R s t → ∀ c cw, R (s.raise c cw) (t.raise c cw)
  setHrand : ∀ {s t}, R s t → ∀ ws, R (s.setHrand ws) (t.setHrand ws)
  setDraws : ∀ {s t}, R s t → ∀ n, R (s.setDraws n) (t.setDraws n)
  write : ∀ {s t}, R s t → ∀ c : UnitContents, c.unit = u → R (s.write c) (t.write c)

/-- Both outcomes are next states, related by `R`, with the same response. -/
def relatedOutcome (R : State → State → Prop) (a b : Result) : Prop :=
  ∃ s t, a = .next s ∧ b = .next t ∧ R s t ∧ s.response = t.response

variable {u : UnitName} {R : State → State → Prop} {s t : State}

theorem relatedOutcome_answer (hR : Respected u R) (h : R s t) (w : Option Word) :
    relatedOutcome R (.next (s.answer w)) (.next (t.answer w)) :=
  ⟨_, _, rfl, rfl, hR.answer h w, by simp⟩

theorem relatedOutcome_raise (hR : Respected u R) (h : R s t) (c : Cause) (cw : CmdWord) :
    relatedOutcome R (.next (s.raise c cw)) (.next (t.raise c cw)) :=
  ⟨_, _, rfl, rfl, hR.raise h c cw, by simp⟩

theorem relatedOutcome_write (hR : Respected u R) (h : R s t) (c : UnitContents) (hc : c.unit = u)
    (w : Option Word) : relatedOutcome R (.next ((s.write c).answer w)) (.next ((t.write c).answer w)) :=
  relatedOutcome_answer hR (hR.write h c hc) w

/-- The valid-bit check (R131) lets the command read its unit only where the two sides hold the same. -/
theorem relatedOutcome_whenConstructed {α : Type} {x y : α} {v v' : Bool} {o : Opcode} {a b : Result}
    (hR : Respected u R) (h : R s t) (hlooks : agreeWhenValid v v' x y) (hrest : x = y → relatedOutcome R a b) :
    relatedOutcome R (s.whenConstructed v o a) (t.whenConstructed v' o b) := by
  obtain ⟨rfl, hsame⟩ := hlooks
  cases v with
  | false => exact relatedOutcome_raise hR h _ _
  | true => exact hrest (hsame rfl)

/-! The draws. -/

theorem relatedOutcome_pairDraw (hR : Respected .pair R) (h : R s t) (o : Opcode) (f : PairWords → Word) :
    relatedOutcome R (pairDraw o f s) (pairDraw o f t) :=
  relatedOutcome_whenConstructed hR h (hR.looks h) fun hsame => by
    rw [hsame]
    exact relatedOutcome_write hR h (.pair _) rfl _

theorem relatedOutcome_arrDraw (hR : Respected .arr R) (h : R s t) (o : Opcode) (f : Word → Word) :
    relatedOutcome R (arrDraw o f s) (arrDraw o f t) :=
  relatedOutcome_whenConstructed hR h (hR.looks h) fun hsame => by
    rw [hsame]
    exact relatedOutcome_write hR h (.arr _) rfl _

theorem relatedOutcome_quadDraw (hR : Respected .quad R) (h : R s t) (o : Opcode) (f : QuadWords → Word) :
    relatedOutcome R (quadDraw o f s) (quadDraw o f t) :=
  relatedOutcome_whenConstructed hR h (hR.looks h) fun hsame => by
    rw [hsame]
    exact relatedOutcome_write hR h (.quad _) rfl _

theorem relatedOutcome_octDraw (hR : Respected .oct R) (h : R s t) (o : Opcode) (f : OctWords → Word) :
    relatedOutcome R (octDraw o f s) (octDraw o f t) :=
  relatedOutcome_whenConstructed hR h (hR.looks h) fun hsame => by
    rw [hsame]
    exact relatedOutcome_write hR h (.oct _) rfl _

theorem exec_draw_related {i : Instr} (hi : isDraw i = true) (hR : Respected (unitOf i) R) (h : R s t) :
    relatedOutcome R (exec i s) (exec i t) := by
  obtain ⟨hu, f, hexec⟩ | ⟨hu, f, hexec⟩ | ⟨hu, f, hexec⟩ | ⟨hu, f, hexec⟩ := exec_draw_cases hi <;>
    rw [hu] at hR <;> rw [hexec, hexec]
  · exact relatedOutcome_pairDraw hR h _ f
  · exact relatedOutcome_arrDraw hR h _ f
  · exact relatedOutcome_quadDraw hR h _ f
  · exact relatedOutcome_octDraw hR h _ f

/-! The constructors: they read the parameters and the HRAND input, no unit. -/

theorem relatedOutcome_seededState {c : GenClass} (hR : Respected (classUnit c) R) (h : R s t) (x : Word) :
    relatedOutcome R (.next (seededState c x s)) (.next (seededState c x t)) := by
  cases c with
  | pair =>
    simp only [seededState, pairSeeded, hR.params h]
    exact relatedOutcome_write hR h (.pair _) rfl _
  | arr =>
    simp only [seededState, arrSeeded, hR.params h]
    exact relatedOutcome_write hR h (.arr _) rfl _
  | quad =>
    simp only [seededState, quadSeeded, hR.params h]
    exact relatedOutcome_write hR h (.quad _) rfl _
  | oct =>
    simp only [seededState, octSeeded, hR.params h]
    exact relatedOutcome_write hR h (.oct _) rfl _

theorem relatedOutcome_seedCommand {c : GenClass} (hR : Respected (classUnit c) R) (h : R s t) (x : Word) :
    relatedOutcome R (exec (seedCommand c x) s) (exec (seedCommand c x) t) := by
  rw [exec_seedCommand, exec_seedCommand]
  exact relatedOutcome_seededState hR h x

theorem takeHrand_related (hR : Respected u R) (h : R s t) :
    s.takeHrand.1 = t.takeHrand.1 ∧ R s.takeHrand.2 t.takeHrand.2 := by
  obtain ⟨w, ws, hqueue, htake⟩ | ⟨hqueue, htake⟩ := takeHrand_cases s
  · rw [htake, takeHrand_cons ((hR.hrand h).symm.trans hqueue)]
    exact ⟨rfl, hR.setHrand h ws⟩
  · rw [htake, takeHrand_nil ((hR.hrand h).symm.trans hqueue), hR.draws h]
    exact ⟨rfl, hR.setDraws h _⟩

theorem relatedOutcome_hostCommand {c : GenClass} (hR : Respected (classUnit c) R) (h : R s t) :
    relatedOutcome R (exec (hostCommand c) s) (exec (hostCommand c) t) := by
  obtain ⟨hword, htaken⟩ := takeHrand_related hR h
  rw [exec_hostCommand, exec_hostCommand, hword]
  exact relatedOutcome_seededState hR htaken _

theorem relatedOutcome_execPairInit (hR : Respected .pair R) (h : R s t) (w : PairWords) :
    relatedOutcome R (execPairInit w s) (execPairInit w t) := by
  unfold execPairInit
  split
  · exact relatedOutcome_write hR h (.pair _) rfl _
  · exact relatedOutcome_raise hR h _ _

theorem relatedOutcome_execArrInit (hR : Respected .arr R) (h : R s t) (p : Word) (a : ArrWords) :
    relatedOutcome R (execArrInit p a s) (execArrInit p a t) := by
  unfold execArrInit
  split
  · exact relatedOutcome_raise hR h _ _
  · split
    · exact relatedOutcome_write hR h (.arr _) rfl _
    · exact relatedOutcome_raise hR h _ _

theorem relatedOutcome_execQuadInit (hR : Respected .quad R) (h : R s t) (w : QuadWords) :
    relatedOutcome R (execQuadInit w s) (execQuadInit w t) := by
  unfold execQuadInit
  split
  · exact relatedOutcome_write hR h (.quad _) rfl _
  · exact relatedOutcome_raise hR h _ _

theorem relatedOutcome_execOctInit (hR : Respected .oct R) (h : R s t) (w : OctWords) :
    relatedOutcome R (execOctInit w s) (execOctInit w t) := by
  unfold execOctInit
  split
  · exact relatedOutcome_write hR h (.oct _) rfl _
  · exact relatedOutcome_raise hR h _ _

theorem relatedOutcome_execEntInit (hR : Respected .ent R) (h : R s t) (x : Word) :
    relatedOutcome R (execEntInit x s) (execEntInit x t) := by
  unfold execEntInit
  split
  · exact relatedOutcome_raise hR h _ _
  · exact relatedOutcome_write hR h (.ent _) rfl _

/-! The remaining commands. -/

theorem relatedOutcome_execRotl (hR : Respected u R) (h : R s t) (x k : Word) :
    relatedOutcome R (execRotl x k s) (execRotl x k t) := by
  unfold execRotl
  split
  · exact relatedOutcome_answer hR h _
  · simp only [State.answerAny64, hR.draws h]
    exact relatedOutcome_answer hR (hR.setDraws h _) _

theorem relatedOutcome_execSmNext (hR : Respected .sm R) (h : R s t) :
    relatedOutcome R (execSmNext s) (execSmNext t) :=
  relatedOutcome_whenConstructed hR h (hR.looks h) fun hsame => by
    rw [hsame, hR.params h]
    exact relatedOutcome_write hR h (.sm _) rfl _

theorem relatedOutcome_execEntAdd (hR : Respected .ent R) (h : R s t) (k : Word) :
    relatedOutcome R (execEntAdd k s) (execEntAdd k t) :=
  relatedOutcome_whenConstructed hR h (hR.looks h) fun hsame => by
    rw [hsame, hR.params h]
    split
    · exact relatedOutcome_raise hR h _ _
    · split
      · exact relatedOutcome_raise hR h _ _
      · exact relatedOutcome_write hR h (.ent _) rfl _

theorem relatedOutcome_entScore (hR : Respected .ent R) (h : R s t) (o : Opcode) (f : BitVec 63 → Table → Word) :
    relatedOutcome R (entScore o f s) (entScore o f t) :=
  relatedOutcome_whenConstructed hR h (hR.looks h) fun hsame => by
    rw [hsame]
    split
    · exact relatedOutcome_raise hR h _ _
    · split
      · simp only [State.answerAnyF64, hR.draws h]
        exact relatedOutcome_answer hR (hR.setDraws h _) _
      · exact relatedOutcome_answer hR h _

/-- An X.EQ answers what a comparison `f` of its unit's contents says. -/
theorem relatedOutcome_compare {α : Type} {x y : α} {v v' : Bool} {o : Opcode} (f : α → Option Word)
    (hR : Respected u R) (h : R s t) (hlooks : agreeWhenValid v v' x y) :
    relatedOutcome R (s.whenConstructed v o (.next (s.answer (f x))))
      (t.whenConstructed v' o (.next (t.answer (f y)))) :=
  relatedOutcome_whenConstructed hR h hlooks fun hsame => by
    rw [hsame]
    exact relatedOutcome_answer hR h _

theorem exec_related {i : Instr} (hR : Respected (unitOf i) R) (h : R s t) :
    relatedOutcome R (exec i s) (exec i t) := by
  cases i with
  | rotl x k => exact relatedOutcome_execRotl hR h x k
  | smInit x => exact relatedOutcome_write hR h (.sm _) rfl _
  | smNext => exact relatedOutcome_execSmNext hR h
  | smEq x => exact relatedOutcome_compare (fun c : SmUnit => some (boolWord (c.x == x))) hR h (hR.looks h)
  | pairEq w => exact relatedOutcome_compare (fun c : PairBank => some (boolWord (c.s == w))) hR h (hR.looks h)
  | arrEq a =>
    exact relatedOutcome_compare (fun c : ArrBank => some (boolWord (c.a.toList == a.toList))) hR h (hR.looks h)
  | quadEq w => exact relatedOutcome_compare (fun c : QuadBank => some (boolWord (c.s == w))) hR h (hR.looks h)
  | octEq w => exact relatedOutcome_compare (fun c : OctBank => some (boolWord (c.s == w))) hR h (hR.looks h)
  | pairInit w => exact relatedOutcome_execPairInit hR h w
  | arrInit p a => exact relatedOutcome_execArrInit hR h p a
  | quadInit w => exact relatedOutcome_execQuadInit hR h w
  | octInit w => exact relatedOutcome_execOctInit hR h w
  | pairSeed x => exact relatedOutcome_seedCommand (c := .pair) hR h x
  | arrSeed x => exact relatedOutcome_seedCommand (c := .arr) hR h x
  | quadSeed x => exact relatedOutcome_seedCommand (c := .quad) hR h x
  | octSeed x => exact relatedOutcome_seedCommand (c := .oct) hR h x
  | pairHost => exact relatedOutcome_hostCommand (c := .pair) hR h
  | arrHost => exact relatedOutcome_hostCommand (c := .arr) hR h
  | quadHost => exact relatedOutcome_hostCommand (c := .quad) hR h
  | octHost => exact relatedOutcome_hostCommand (c := .oct) hR h
  | pairNextP | pairNextPP | pairNextSS | arrNextSS | arrNextS | quadNextP | quadNextPP | quadNextSS | octNextP
  | octNextPP | octNextSS => exact exec_draw_related rfl hR h
  | entInit x => exact relatedOutcome_execEntInit hR h x
  | entAdd k => exact relatedOutcome_execEntAdd hR h k
  | entEntropy =>
    rw [exec_entEntropy, exec_entEntropy, hR.params h]
    exact relatedOutcome_entScore hR h _ _
  | entEfficiency =>
    rw [exec_entEfficiency, exec_entEfficiency, hR.params h]
    exact relatedOutcome_entScore hR h _ _

end Sys2Proof.Machine
end

section
/-! R29: a command sees its own unit and what comes from outside, no other unit. -/

namespace Sys2Proof.Machine

/-- The states agree on the unit `u`, the inputs from outside and the parameters. -/
def sameInputs (u : UnitName) (s t : State) : Prop :=
  sameUnit u s t ∧ s.hrand = t.hrand ∧ s.draws = t.draws ∧ s.params = t.params

theorem sameInputs_respected (u : UnitName) : Respected u (sameInputs u) where
  looks h := by cases u <;> simp_all [sameInputs, sameUnit, looksSame, agreeWhenValid]
  hrand h := h.2.1
  draws h := h.2.2.1
  params h := h.2.2.2
  answer h w := by cases u <;> simpa [sameInputs, sameUnit] using h
  raise h c cw := by cases u <;> simpa [sameInputs, sameUnit] using h
  setHrand h ws := by cases u <;> simp_all [sameInputs, sameUnit]
  setDraws h n := by cases u <;> simp_all [sameInputs, sameUnit]
  write h c hc := by subst hc; cases c <;> simp_all [sameInputs, sameUnit, State.write, UnitContents.unit]

/-- What stands outside a command's unit: the port and the parameters stay, and but for X.HOST so does HRAND. -/
theorem exec_frame (i : Instr) (s : State) :
    ∃ t, exec i s = .next t ∧ sameOutside (unitOf i) s t ∧ t.port = s.port ∧ t.params = s.params ∧
      (isHost i = false → t.hrand = s.hrand) := by
  obtain ⟨-, hraise⟩ | ⟨-, ⟨t, w, hanswer, houtside, -, hport, hparams, hhrand⟩ | ⟨-, c, -, hraise⟩⟩ :=
    Laws.exec_outcome i s
  · exact ⟨_, hraise, by simp [sameOutside], by simp, by simp, by simp⟩
  · exact ⟨_, hanswer, (sameOutside_answer w).mpr houtside, by simpa using hport, by simpa using hparams,
      by simpa using hhrand⟩
  · exact ⟨_, hraise, by simp [sameOutside], by simp, by simp, by simp⟩

/-- Settles O54: the frame, then `exec_related` for the agreement on the command's own inputs. -/
theorem unitsAreIndependent : Obligations.UnitsAreIndependent := by
  intro i s s'
  obtain ⟨t, hexec, houtside, hport, hparams, hhrand⟩ := exec_frame i s
  refine ⟨t, hexec, houtside, hport, hparams, hhrand, fun hunit hqueue hdraws hsame => ?_⟩
  obtain ⟨r, t', hr, ht', ⟨hunit', -⟩, hresponse⟩ :=
    exec_related (sameInputs_respected (unitOf i)) ⟨hunit, hqueue, hdraws, hsame⟩
  obtain rfl := Host.Outcome.next.inj (hexec.symm.trans hr)
  exact ⟨t', ht', hunit', hresponse⟩

end Sys2Proof.Machine
end

section
/-! R28, U10: the contents of an unconstructed unit show in no outcome. -/

namespace Sys2Proof.Machine

theorem agreeWhenValid_refl {α : Type} (v : Bool) (a : α) : agreeWhenValid v v a a := ⟨rfl, fun _ => rfl⟩

theorem indistinguishable_respected (u : UnitName) : Respected u indistinguishable where
  looks h := by cases u <;> simp_all [indistinguishable, looksSame]
  hrand h := by simp_all [indistinguishable]
  draws h := by simp_all [indistinguishable]
  params h := by simp_all [indistinguishable]
  answer h w := by simp_all [indistinguishable]
  raise h c cw := by simp_all [indistinguishable]
  setHrand h ws := by simp_all [indistinguishable]
  setDraws h n := by simp_all [indistinguishable]
  write h c _ := by cases c <;> simp_all [indistinguishable, State.write, agreeWhenValid_refl]

theorem indistinguishable_setPort {s t : State} (h : indistinguishable s t) (es : List HostEvent) :
    indistinguishable (s.setPort es) (t.setPort es) := by simp_all [indistinguishable]

theorem indistinguishable_answerHalted {s t : State} (h : indistinguishable s t) :
    indistinguishable s.answerHalted t.answerHalted := by simp_all [indistinguishable]

theorem indistinguishable_assertReset {s t : State} (h : indistinguishable s t) :
    indistinguishable s.assertReset t.assertReset := by simp_all [indistinguishable, agreeWhenValid_refl]

theorem exec_indistinguishable {s t : State} (h : indistinguishable s t) (i : Instr) :
    sameOutcome (exec i s) (exec i t) := by
  obtain ⟨s', t', hs, ht, hrelated, -⟩ := exec_related (indistinguishable_respected (unitOf i)) h
  rw [hs, ht]
  exact hrelated

/-- Settles O58: the two ports and FAULT registers are equal, so both steps take the same case. -/
theorem unconstructedDataIsUnobservable : Obligations.UnconstructedDataIsUnobservable := by
  intro s t h
  obtain ⟨-, -, -, -, -, -, hfault, hport, -⟩ := id h
  have hcase := step_cases s
  generalize hstep : step s = o at hcase
  cases hcase with
  | waiting hs =>
    rw [step_of_waiting (hport.symm.trans hs)]
    exact h
  | halted r rest hs hhalt =>
    rw [step_of_halted (hport.symm.trans hs) (hfault ▸ hhalt)]
    exact indistinguishable_answerHalted (indistinguishable_setPort h rest)
  | illegal r rest e hs hrun hdecode =>
    rw [step_of_decode_error (hport.symm.trans hs) (hfault ▸ hrun) hdecode]
    exact (indistinguishable_respected .rot).raise (indistinguishable_setPort h rest) _ _
  | command r rest i hs hrun hdecode hexec =>
    rw [step_of_decode_ok (hport.symm.trans hs) (hfault ▸ hrun) hdecode, ← hexec]
    exact exec_indistinguishable (indistinguishable_setPort h rest) i
  | reset rest hs =>
    rw [step_of_reset (hport.symm.trans hs)]
    exact indistinguishable_assertReset (indistinguishable_setPort h rest)
  | concurrent r₁ r₂ rest hs =>
    rw [concurrentTransactionsRefused t r₁ r₂ rest (hport.symm.trans hs)]
    rfl

end Sys2Proof.Machine
end

section
/-! The real-valued scores (R120, R126): the scaling cancels, and the entropy lies between 0 and that of the uniform
distribution. -/

namespace Sys2Proof.Machine

theorem toNat_pos_of_ne_zero {n : Nat} {x : BitVec n} (h : x ≠ 0) : 0 < x.toNat :=
  Nat.pos_of_ne_zero fun h0 => h (BitVec.eq_of_toNat_eq (h0.trans BitVec.toNat_zero.symm))

/-- The count of an entry as a real number. -/
noncomputable def realCount (e : Word × Word) : ℝ := (e.2.toNat : ℝ)

/-- `p_k = c_k / N` (R120). -/
noncomputable def probability (t : Table) (e : Word × Word) : ℝ := realCount e / (tableTotal t : ℝ)

theorem sum_realCount (t : Table) : (t.map realCount).sum = (tableTotal t : ℝ) := by
  induction t with
  | nil => simp [tableTotal]
  | cons e t ih => simp [tableTotal, realCount] at ih ⊢; rw [ih]

/-- `S = N * (1 / D)`: the scale is a factor of the sum of the `q_k`. -/
theorem sum_scaledCounts (d : Nat) (t : Table) : (scaledCounts d t).sum = (tableTotal t : ℝ) * (1 / (d : ℝ)) := by
  rw [← sum_realCount, ← List.sum_map_mul_right]
  rfl

/-- Settles O52: each `q_k / S` is `c_k / N`, the factor `1 / D` being no 0. -/
theorem realScalingCancels : Obligations.RealScalingCancels := by
  intro d t hd
  have hscale : (1 / (d : ℝ)) ≠ 0 := one_div_ne_zero (Nat.cast_ne_zero.mpr hd.ne')
  rw [entropyReal, sum_scaledCounts, scaledCounts, List.map_map]
  simp only [Function.comp_def, mul_div_mul_right _ _ hscale]

/-! Entropy in natural units: Mathlib's `Real.negMulLog`. -/

theorem entropyReal_eq_sum_negMulLog {d : Nat} (hd : 0 < d) (t : Table) :
    entropyReal d t = (t.map fun e => Real.negMulLog (probability t e)).sum / Real.log 2 := by
  have hterm (e : Word × Word) : (e.2.toNat : ℝ) / tableTotal t * Real.logb 2 ((e.2.toNat : ℝ) / tableTotal t) =
      Real.negMulLog (probability t e) * -(Real.log 2)⁻¹ := by
    rw [Real.negMulLog, Real.logb, probability, realCount]
    ring
  simp only [realScalingCancels d t hd, hterm, List.sum_map_mul_right]
  ring

theorem tableTotal_pos {t : Table} (hcounts : ∀ e ∈ t, e.2 ≠ 0) (hne : t ≠ []) : 0 < tableTotal t := by
  obtain ⟨e, he⟩ := List.exists_mem_of_ne_nil t hne
  have hpos : 0 < e.2.toNat := toNat_pos_of_ne_zero (hcounts e he)
  exact hpos.trans_le (count_le_tableTotal he)

theorem probability_mem_Ioc {t : Table} (hcounts : ∀ e ∈ t, e.2 ≠ 0) {e : Word × Word} (he : e ∈ t) :
    0 < probability t e ∧ probability t e ≤ 1 := by
  have hpos : 0 < e.2.toNat := toNat_pos_of_ne_zero (hcounts e he)
  have hle : e.2.toNat ≤ tableTotal t := count_le_tableTotal he
  have hcount : (0 : ℝ) < realCount e := Nat.cast_pos.mpr hpos
  have htotal : (0 : ℝ) < (tableTotal t : ℝ) := Nat.cast_pos.mpr (hpos.trans_le hle)
  exact ⟨div_pos hcount htotal, (div_le_one htotal).mpr (Nat.cast_le.mpr hle)⟩

theorem sum_probability {t : Table} (hcounts : ∀ e ∈ t, e.2 ≠ 0) (hne : t ≠ []) : (t.map (probability t)).sum = 1 := by
  have htotal : (tableTotal t : ℝ) ≠ 0 := Nat.cast_ne_zero.mpr (tableTotal_pos hcounts hne).ne'
  have hsum : (t.map (probability t)).sum = (t.map realCount).sum / (tableTotal t : ℝ) := by
    rw [div_eq_mul_inv, ← List.sum_map_mul_right]
    rfl
  rw [hsum, sum_realCount, div_self htotal]

/-- Gibbs' inequality for one outcome of probability `p`, against the uniform distribution on `n` outcomes. -/
theorem negMulLog_le {p n : ℝ} (hp : 0 < p) (hn : 0 < n) : Real.negMulLog p ≤ 1 / n + p * (Real.log n - 1) := by
  have hlog : Real.log (1 / (n * p)) ≤ 1 / (n * p) - 1 := Real.log_le_sub_one_of_pos (by positivity)
  have hscaled := mul_le_mul_of_nonneg_left hlog hp.le
  rw [Real.log_div one_ne_zero (by positivity), Real.log_one, Real.log_mul hn.ne' hp.ne'] at hscaled
  have hcancel : p * (1 / (n * p) - 1) = 1 / n - p := by field_simp
  rw [Real.negMulLog]
  linarith

theorem sum_negMulLog_nonneg {t : Table} (hcounts : ∀ e ∈ t, e.2 ≠ 0) :
    0 ≤ (t.map fun e => Real.negMulLog (probability t e)).sum := by
  refine List.sum_nonneg fun x hx => ?_
  obtain ⟨e, he, rfl⟩ := List.mem_map.mp hx
  obtain ⟨hpos, hle⟩ := probability_mem_Ioc hcounts he
  exact Real.negMulLog_nonneg hpos.le hle

/-- The uniform distribution has the largest entropy. -/
theorem sum_negMulLog_le_log_length {t : Table} (hcounts : ∀ e ∈ t, e.2 ≠ 0) (hne : t ≠ []) :
    (t.map fun e => Real.negMulLog (probability t e)).sum ≤ Real.log t.length := by
  have hlength : (0 : ℝ) < t.length := Nat.cast_pos.mpr (List.length_pos_iff.mpr hne)
  calc (t.map fun e => Real.negMulLog (probability t e)).sum
      ≤ (t.map fun e => 1 / (t.length : ℝ) + probability t e * (Real.log t.length - 1)).sum :=
        List.sum_le_sum fun e he => negMulLog_le (probability_mem_Ioc hcounts he).1 hlength
    _ = t.length * (1 / (t.length : ℝ)) + (t.map (probability t)).sum * (Real.log t.length - 1) := by
        rw [List.sum_map_add, List.sum_map_mul_right, List.map_const', List.sum_replicate, nsmul_eq_mul]
    _ = Real.log t.length := by
        rw [sum_probability hcounts hne]
        field_simp
        ring

/-- Settles O53: Gibbs' inequality in bits, and the efficiency as a quotient of two such scores. -/
theorem realScoreBounds : Obligations.RealScoreBounds := by
  intro d t hcounts hne hlength
  have hkeys : 0 < t.length := List.length_pos_iff.mpr hne
  have hlog2 : (0 : ℝ) < Real.log 2 := Real.log_pos (by norm_num)
  have hentropy := entropyReal_eq_sum_negMulLog (hkeys.trans_le hlength) t
  have hnonneg : 0 ≤ entropyReal d t := by
    rw [hentropy]
    exact div_nonneg (sum_negMulLog_nonneg hcounts) hlog2.le
  have hupper : entropyReal d t ≤ Real.logb 2 t.length := by
    rw [hentropy, Real.logb]
    exact div_le_div_of_nonneg_right (sum_negMulLog_le_log_length hcounts hne) hlog2.le
  have hdomain : Real.logb 2 t.length ≤ Real.logb 2 d :=
    Real.logb_le_logb_of_le (by norm_num) (Nat.cast_pos.mpr hkeys) (Nat.cast_le.mpr hlength)
  refine ⟨hnonneg, hupper, hdomain, fun hd => ?_⟩
  have hbits : 0 < Real.logb 2 d := Real.logb_pos (by norm_num) (Nat.one_lt_cast.mpr hd)
  exact ⟨div_nonneg hnonneg hbits.le, (div_le_one hbits).mpr (hupper.trans hdomain)⟩

end Sys2Proof.Machine
end

section
/-! Rounding to binary64 in the range of normal numbers (G7): which pattern `f64Round` answers, by the exact rational it
is given. -/

namespace Sys2Proof.Machine

/-- The pattern of the normal number `m * 2^e`, for `2^52 ≤ m < 2^53`: a carry out of `m` runs into the exponent. -/
def f64Normal (m : Nat) (e : Int) : Word := f64WithSign false ((e + 1074).toNat * 2 ^ 52 + m)

/-- The significand and the exponent of a normal number. -/
def isNormal (m : Nat) (e : Int) : Prop := 2 ^ 52 ≤ m ∧ m < 2 ^ 53 ∧ -1074 ≤ e ∧ e ≤ 971

theorem f64Normal_toNat {m : Nat} {e : Int} (h : isNormal m e) :
    (f64Normal m e).toNat = (e + 1074).toNat * 2 ^ 52 + m := by
  obtain ⟨-, hm, he, he'⟩ := h
  rw [f64Normal, f64WithSign, if_neg Bool.false_ne_true, Nat.add_zero, BitVec.toNat_ofNat, Nat.mod_eq_of_lt]
  omega

theorem f64Unpack_f64Normal {m : Nat} {e : Int} (h : isNormal m e) : f64Unpack (f64Normal m e) = .fin false m e := by
  have hnat := f64Normal_toNat h
  obtain ⟨hm, hm', he, he'⟩ := h
  have hmsb : (f64Normal m e).msb = false := by
    rw [BitVec.msb_eq_false_iff_two_mul_lt, hnat]
    omega
  have hexp : ((f64Normal m e).extractLsb' 52 11).toNat = (e + 1075).toNat := by
    rw [BitVec.extractLsb'_toNat, hnat, Nat.shiftRight_eq_div_pow]
    omega
  have hfrac : ((f64Normal m e).extractLsb' 0 52).toNat = m - 2 ^ 52 := by
    rw [BitVec.extractLsb'_toNat, hnat, Nat.shiftRight_zero]
    omega
  have hnotmax : (e + 1075).toNat ≠ 2047 := by omega
  have hnotzero : (e + 1075).toNat ≠ 0 := by omega
  have hm'' : 2 ^ 52 + (m - 2 ^ 52) = m := by omega
  have he'' : ((e + 1075).toNat : Int) - 1075 = e := by omega
  simp only [f64Unpack, hmsb, hexp, hfrac, if_neg hnotmax, if_neg hnotzero, hm'', he'']

/-- The exponent of the leading bit of `num / den`, as `f64Round` finds it. -/
def leadExponent (num den : Nat) : Int :=
  let d : Int := (num.log2 : Int) - (den.log2 : Int)
  if den <<< d.toNat ≤ num <<< (-d).toNat then d else d - 1

/-- `n / m` to the nearest whole number, ties to even, as `f64Round` takes it. -/
def roundedQuotient (n m : Nat) : Nat :=
  if m < 2 * (n % m) ∨ (2 * (n % m) = m ∧ n / m % 2 = 1) then n / m + 1 else n / m

theorem f64Round_eq {num : Nat} (hnum : num ≠ 0) (neg : Bool) (den : Nat) :
    f64Round neg num den =
      f64WithSign neg (min ((max (leadExponent num den - 52) (-1074) + 1074).toNat * 2 ^ 52 +
        roundedQuotient (num <<< (-(max (leadExponent num den - 52) (-1074))).toNat)
          (den <<< (max (leadExponent num den - 52) (-1074)).toNat)) 0x7ff0000000000000) := by
  rw [f64Round, if_neg hnum]
  rfl

theorem two_zpow_mul {a b c : Int} (h : a + b = c) : (2 : ℚ) ^ a * 2 ^ b = 2 ^ c := by
  rw [← zpow_add₀ two_ne_zero, h]

theorem two_zpow_eq (z : Int) : (2 : ℚ) ^ z = 2 ^ z.toNat / 2 ^ (-z).toNat := by
  rw [eq_div_iff (by positivity), ← zpow_natCast, ← zpow_natCast, ← zpow_add₀ two_ne_zero]
  congr 1
  omega

/-- Shifting numerator or denominator scales the quotient by a power of two. -/
theorem shiftLeft_div_shiftLeft (num den : Nat) (z : Int) :
    ((num <<< z.toNat : Nat) : ℚ) / ((den <<< (-z).toNat : Nat) : ℚ) = num / den * 2 ^ z := by
  rw [two_zpow_eq, Nat.shiftLeft_eq, Nat.shiftLeft_eq]
  push_cast
  rw [mul_div_mul_comm]

theorem shiftLeft_le_shiftLeft_iff {den : Nat} (hden : 0 < den) (num : Nat) (z : Int) :
    den <<< z.toNat ≤ num <<< (-z).toNat ↔ (2 : ℚ) ^ z ≤ num / den := by
  rw [two_zpow_eq, div_le_div_iff₀ (by positivity) (by positivity), Nat.shiftLeft_eq, Nat.shiftLeft_eq,
    ← Nat.cast_le (α := ℚ), mul_comm den]
  push_cast
  rfl

theorem zpow_log2_le {n : Nat} (hn : n ≠ 0) : (2 : ℚ) ^ (n.log2 : Int) ≤ n := by
  exact_mod_cast Nat.log2_self_le hn

theorem lt_zpow_log2_succ (n : Nat) : (n : ℚ) < 2 ^ ((n.log2 : Int) + 1) := by
  exact_mod_cast Nat.lt_log2_self

theorem two_zpow_leadExponent {num den : Nat} (hnum : num ≠ 0) (hden : 0 < den) :
    (2 : ℚ) ^ leadExponent num den ≤ num / den ∧ (num / den : ℚ) < 2 ^ (leadExponent num den + 1) := by
  have hden' : (0 : ℚ) < den := Nat.cast_pos.mpr hden
  have hlo : (2 : ℚ) ^ ((num.log2 : Int) - den.log2 - 1) ≤ num / den := by
    rw [le_div_iff₀ hden']
    calc (2 : ℚ) ^ ((num.log2 : Int) - den.log2 - 1) * den
        ≤ 2 ^ ((num.log2 : Int) - den.log2 - 1) * 2 ^ ((den.log2 : Int) + 1) := by
          gcongr
          exact (lt_zpow_log2_succ den).le
      _ = 2 ^ (num.log2 : Int) := two_zpow_mul (by ring)
      _ ≤ num := zpow_log2_le hnum
  have hhi : (num / den : ℚ) < 2 ^ ((num.log2 : Int) - den.log2 + 1) := by
    rw [div_lt_iff₀ hden']
    calc (num : ℚ) < 2 ^ ((num.log2 : Int) + 1) := lt_zpow_log2_succ num
      _ = 2 ^ ((num.log2 : Int) - den.log2 + 1) * 2 ^ (den.log2 : Int) := (two_zpow_mul (by ring)).symm
      _ ≤ 2 ^ ((num.log2 : Int) - den.log2 + 1) * den := by
          gcongr
          exact zpow_log2_le hden.ne'
  unfold leadExponent
  simp only [shiftLeft_le_shiftLeft_iff hden]
  split
  · exact ⟨‹_›, hhi⟩
  · rw [sub_add_cancel]
    exact ⟨hlo, not_le.mp ‹_›⟩

/-- The leading bit of a rational is at one place only. -/
theorem leadExponent_eq {num den : Nat} (hnum : num ≠ 0) (hden : 0 < den) {z : Int} (hlo : (2 : ℚ) ^ z ≤ num / den)
    (hhi : (num / den : ℚ) < 2 ^ (z + 1)) : leadExponent num den = z := by
  obtain ⟨hlo', hhi'⟩ := two_zpow_leadExponent hnum hden
  have h1 : z < leadExponent num den + 1 := (zpow_lt_zpow_iff_right₀ one_lt_two).mp (hlo.trans_lt hhi')
  have h2 : leadExponent num den < z + 1 := (zpow_lt_zpow_iff_right₀ one_lt_two).mp (hlo'.trans_lt hhi)
  omega

theorem roundedQuotient_mem_Icc (n m : Nat) : n / m ≤ roundedQuotient n m ∧ roundedQuotient n m ≤ n / m + 1 := by
  unfold roundedQuotient
  split
  · exact ⟨Nat.le_succ _, le_rfl⟩
  · exact ⟨le_rfl, Nat.le_succ _⟩

theorem roundedQuotient_mul {m : Nat} (hm : 0 < m) (q : Nat) : roundedQuotient (q * m) m = q := by
  rw [roundedQuotient, Nat.mul_mod_left, Nat.mul_div_cancel q hm, if_neg (by omega)]

/-- The two whole numbers `f64Round` divides: their quotient is `num / den` in units of `2^e`. -/
theorem shifted_quotient (num den : Nat) (e : Int) :
    ((num <<< (-e).toNat : Nat) : ℚ) / ((den <<< e.toNat : Nat) : ℚ) = num / den * 2 ^ (-e) := by
  simpa only [neg_neg] using shiftLeft_div_shiftLeft num den (-e)

theorem shiftLeft_pos {den : Nat} (hden : 0 < den) (n : Nat) : 0 < den <<< n := by
  rw [Nat.shiftLeft_eq]
  positivity

/-- Where the leading bit is at `e + 52`, that quotient has 53 bits before its point. -/
theorem shifted_quotient_mem_Ico {num den : Nat} (hden : 0 < den) {e : Int} (hlo : (2 : ℚ) ^ (e + 52) ≤ num / den)
    (hhi : (num / den : ℚ) < 2 ^ (e + 53)) :
    2 ^ 52 ≤ num <<< (-e).toNat / den <<< e.toNat ∧ num <<< (-e).toNat / den <<< e.toNat < 2 ^ 53 := by
  have hpos : 0 < den <<< e.toNat := shiftLeft_pos hden _
  have hpos' : (0 : ℚ) < (den <<< e.toNat : Nat) := Nat.cast_pos.mpr hpos
  have hlo' : (2 : ℚ) ^ (52 : Int) ≤ ((num <<< (-e).toNat : Nat) : ℚ) / (den <<< e.toNat : Nat) := by
    rw [shifted_quotient, ← two_zpow_mul (show e + 52 + -e = 52 by ring)]
    gcongr
  have hhi' : ((num <<< (-e).toNat : Nat) : ℚ) / (den <<< e.toNat : Nat) < 2 ^ (53 : Int) := by
    rw [shifted_quotient, ← two_zpow_mul (show e + 53 + -e = 53 by ring)]
    gcongr
  rw [le_div_iff₀ hpos'] at hlo'
  rw [div_lt_iff₀ hpos'] at hhi'
  rw [Nat.le_div_iff_mul_le hpos, Nat.div_lt_iff_lt_mul hpos]
  exact ⟨by exact_mod_cast hlo', by exact_mod_cast hhi'⟩

/-- `f64Round` where the leading bit is at `e + 52`: the significand is the quotient by `2^e`, rounded, and exact where
that is a whole number. -/
theorem f64Round_of_lead {num den : Nat} (hnum : num ≠ 0) (hden : 0 < den) {e : Int} (he : -1074 ≤ e) (he' : e ≤ 970)
    (hlo : (2 : ℚ) ^ (e + 52) ≤ num / den) (hhi : (num / den : ℚ) < 2 ^ (e + 53)) :
    ∃ q, 2 ^ 52 ≤ q ∧ q ≤ 2 ^ 53 ∧ f64Round false num den = f64Normal q e ∧
      ∀ m : Nat, (num / den : ℚ) = m * 2 ^ e → q = m := by
  have hlead : leadExponent num den = e + 52 := leadExponent_eq hnum hden hlo (by rwa [add_assoc])
  have hk : max (leadExponent num den - 52) (-1074) = e := by omega
  obtain ⟨hqlo, hqhi⟩ := shifted_quotient_mem_Ico hden hlo hhi
  obtain ⟨hrlo, hrhi⟩ := roundedQuotient_mem_Icc (num <<< (-e).toNat) (den <<< e.toNat)
  refine ⟨_, hqlo.trans hrlo, by omega, ?_, fun m hm => ?_⟩
  · rw [f64Round_eq hnum, hk, f64Normal, Nat.min_eq_left (by omega)]
  · have hpos : 0 < den <<< e.toNat := shiftLeft_pos hden _
    have hexact : ((num <<< (-e).toNat : Nat) : ℚ) / (den <<< e.toNat : Nat) = m := by
      rw [shifted_quotient, hm, mul_assoc, two_zpow_mul (add_neg_cancel e), zpow_zero, mul_one]
    rw [div_eq_iff (Nat.cast_ne_zero.mpr hpos.ne')] at hexact
    have hproduct : num <<< (-e).toNat = m * den <<< e.toNat := by exact_mod_cast hexact
    rw [hproduct, roundedQuotient_mul hpos]

/-- The exact value of a normal number. -/
def normalValue (m : Nat) (e : Int) : ℚ := m * 2 ^ e

/-- The leading bit of a normal number is at `e + 52`. -/
theorem normalValue_bounds {m : Nat} {e : Int} (h : isNormal m e) :
    (2 : ℚ) ^ (e + 52) ≤ normalValue m e ∧ normalValue m e < 2 ^ (e + 53) := by
  obtain ⟨hm, hm', -⟩ := h
  have hlo : (2 : ℚ) ^ (52 : Int) ≤ m := by exact_mod_cast hm
  have hhi : (m : ℚ) < 2 ^ (53 : Int) := by exact_mod_cast hm'
  rw [normalValue, ← two_zpow_mul (add_comm 52 e), ← two_zpow_mul (add_comm 53 e)]
  exact ⟨by gcongr, by gcongr⟩

theorem ne_zero_of_zpow_le {num den : Nat} {z : Int} (h : (2 : ℚ) ^ z ≤ num / den) : num ≠ 0 := by
  rintro rfl
  have hpos : (0 : ℚ) < 2 ^ z := by positivity
  simp at h
  linarith

/-- A normal number is its own rounding. -/
theorem f64Round_of_eq_normalValue {num den : Nat} (hden : 0 < den) {m : Nat} {e : Int} (h : isNormal m e)
    (he : e ≤ 970) (hvalue : (num / den : ℚ) = normalValue m e) : f64Round false num den = f64Normal m e := by
  obtain ⟨hlo, hhi⟩ := normalValue_bounds h
  rw [← hvalue] at hlo hhi
  obtain ⟨q, -, -, hround, hexact⟩ := f64Round_of_lead (ne_zero_of_zpow_le hlo) hden h.2.2.1 he hlo hhi
  rw [hround, hexact m hvalue]

/-- `w` is a normal number whose leading bit is at a place from `lo` to `hi`. -/
def normalWithin (lo hi : Int) (w : Word) : Prop :=
  ∃ m e, w = f64Normal m e ∧ isNormal m e ∧ lo ≤ e + 52 ∧ e + 52 ≤ hi

/-- Rounding keeps within powers of two; it may reach the upper one. -/
theorem f64Round_normalWithin {num den : Nat} (hden : 0 < den) {lo hi : Int} (hlo : -1022 ≤ lo) (hhi : hi ≤ 1022)
    (hge : (2 : ℚ) ^ lo ≤ num / den) (hlt : (num / den : ℚ) < 2 ^ hi) :
    normalWithin lo hi (f64Round false num den) := by
  have hnum : num ≠ 0 := ne_zero_of_zpow_le hge
  obtain ⟨hleadlo, hleadhi⟩ := two_zpow_leadExponent hnum hden
  have h1 : lo < leadExponent num den + 1 := (zpow_lt_zpow_iff_right₀ one_lt_two).mp (hge.trans_lt hleadhi)
  have h2 : leadExponent num den < hi := (zpow_lt_zpow_iff_right₀ one_lt_two).mp (hleadlo.trans_lt hlt)
  obtain ⟨e, he⟩ : ∃ e, leadExponent num den = e + 52 := ⟨_, (sub_add_cancel _ 52).symm⟩
  rw [he] at hleadlo hleadhi h1 h2
  rw [add_assoc] at hleadhi
  obtain ⟨q, hqlo, hqhi, hround, -⟩ :=
    f64Round_of_lead hnum hden (e := e) (by omega) (by omega) hleadlo hleadhi
  rw [hround]
  rcases hqhi.lt_or_eq with hq | rfl
  · exact ⟨q, e, rfl, ⟨hqlo, hq, by omega, by omega⟩, by omega, by omega⟩
  · refine ⟨2 ^ 52, e + 1, ?_, ⟨le_rfl, by norm_num, by omega, by omega⟩, by omega, by omega⟩
    have hcarry : (e + 1 + 1074).toNat * 2 ^ 52 + 2 ^ 52 = (e + 1074).toNat * 2 ^ 52 + 2 ^ 53 := by omega
    rw [f64Normal, f64Normal, hcarry]

end Sys2Proof.Machine
end

section
/-! The reference evaluation of one distinct key (R121, R125): its probability is exactly 1, its logarithm exactly 0. -/

namespace Sys2Proof.Machine

theorem normalWithin_bounds {m : Nat} {e lo hi : Int} (h : isNormal m e) (hlo : lo ≤ e + 52) (hhi : e + 52 ≤ hi) :
    (2 : ℚ) ^ lo ≤ normalValue m e ∧ normalValue m e < 2 ^ (hi + 1) := by
  obtain ⟨hge, hlt⟩ := normalValue_bounds h
  exact ⟨(zpow_le_zpow_right₀ one_le_two hlo).trans hge,
    hlt.trans_le (zpow_le_zpow_right₀ one_le_two (by omega))⟩

/-! `1.0`, `+0.0` and `-0.0`. -/

theorem isNormal_one : isNormal (2 ^ 52) (-52) := ⟨by decide, by decide, by decide, by decide⟩

theorem f64One_eq : f64One = f64Normal (2 ^ 52) (-52) := by decide

theorem f64Unpack_one : f64Unpack f64One = .fin false (2 ^ 52) (-52) := by
  rw [f64One_eq, f64Unpack_f64Normal isNormal_one]

theorem normalValue_one : normalValue (2 ^ 52) (-52) = 1 := by
  rw [normalValue]
  norm_num

theorem f64WithSign_false_zero : f64WithSign false 0 = 0#64 := by decide

theorem f64Unpack_zero : f64Unpack 0#64 = .fin false 0 (-1074) := by decide

theorem f64Unpack_negZero : f64Unpack 0x8000000000000000#64 = .fin true 0 (-1074) := by decide

theorem f64Round_zero (den : Nat) : f64Round false 0 den = 0#64 := by
  rw [f64Round, if_pos rfl, f64WithSign_false_zero]

/-! The operations on normal numbers, zero and one. -/

theorem f64Round_one {n : Nat} (hn : 0 < n) : f64Round false n n = f64One := by
  have hvalue : (n / n : ℚ) = normalValue (2 ^ 52) (-52) := by
    rw [normalValue_one, div_self (Nat.cast_ne_zero.mpr hn.ne')]
  rw [f64Round_of_eq_normalValue hn isNormal_one (by decide) hvalue, f64One_eq]

theorem pos_of_isNormal {m : Nat} {e : Int} (h : isNormal m e) : 0 < m := by
  obtain ⟨hm, -⟩ := h
  omega

theorem f64OfNat_normalWithin {n k : Nat} (hn : 0 < n) (hlt : n < 2 ^ k) (hk : k ≤ 1022) :
    normalWithin 0 k (f64OfNat n) := by
  have hge : (1 : ℚ) ≤ n := by exact_mod_cast hn
  have hlt' : (n : ℚ) < 2 ^ k := by exact_mod_cast hlt
  refine f64Round_normalWithin one_pos (by decide) (by omega) ?_ ?_
  · rwa [Nat.cast_one, div_one, zpow_zero]
  · rwa [Nat.cast_one, div_one, zpow_natCast]

theorem fdiv_of_fin (nan : Word) {x y : Word} {a b : Bool} {m n : Nat} {e f : Int} (hx : f64Unpack x = .fin a m e)
    (hy : f64Unpack y = .fin b n f) (hn : n ≠ 0) :
    fdiv nan x y = f64Round (a != b) (m <<< (e - f).toNat) (n <<< (f - e).toNat) := by
  rw [fdiv, hx, hy]
  exact if_neg hn

theorem fmul_of_fin (nan : Word) {x y : Word} {a b : Bool} {m n : Nat} {e f : Int} (hx : f64Unpack x = .fin a m e)
    (hy : f64Unpack y = .fin b n f) : fmul nan x y = f64OfScaled (a != b) (m * n) (e + f) := by
  rw [fmul, hx, hy]

/-- The sum of two numbers that are not negative. -/
theorem fadd_of_fin (nan : Word) {x y : Word} {m n : Nat} {e f : Int} (hx : f64Unpack x = .fin false m e)
    (hy : f64Unpack y = .fin false n f) :
    fadd nan x y =
      if m <<< (e - min e f).toNat + n <<< (f - min e f).toNat = 0 then 0#64
      else f64OfScaled false (m <<< (e - min e f).toNat + n <<< (f - min e f).toNat) (min e f) := by
  rw [fadd, hx, hy]
  simp only [Bool.false_eq_true, if_false, Bool.and_self, f64WithSign_false_zero]
  generalize m <<< (e - min e f).toNat = i
  generalize n <<< (f - min e f).toNat = j
  have hcast : (i : Int) + j = ((i + j : Nat) : Int) := (Nat.cast_add i j).symm
  have hsign : decide (((i + j : Nat) : Int) < 0) = false := decide_eq_false (Int.natCast_nonneg _).not_gt
  rw [hcast, hsign, Int.natAbs_natCast]
  simp only [Nat.cast_eq_zero]

theorem fdiv_one_normalWithin (nan : Word) {w : Word} {k : Nat} (hk : k ≤ 1020) (h : normalWithin 0 k w) :
    normalWithin (-(k + 1)) 1 (fdiv nan f64One w) := by
  obtain ⟨m, e, rfl, hnormal, hlo, hhi⟩ := h
  obtain ⟨hge, hlt⟩ := normalWithin_bounds hnormal hlo hhi
  have hpos : 0 < m := pos_of_isNormal hnormal
  have hvalue : (0 : ℚ) < normalValue m e := lt_of_lt_of_le (by norm_num) hge
  have hquotient : (((2 ^ 52) <<< (-52 - e).toNat : Nat) : ℚ) / ((m <<< (-(-52 - e)).toNat : Nat) : ℚ) =
      1 / normalValue m e := by
    rw [shiftLeft_div_shiftLeft, normalValue, sub_eq_add_neg, ← two_zpow_mul rfl, zpow_neg _ e]
    push_cast
    field_simp
    norm_num
  rw [fdiv_of_fin nan f64Unpack_one (f64Unpack_f64Normal hnormal) hpos.ne', ← neg_sub (-52 : Int) e]
  refine f64Round_normalWithin (shiftLeft_pos hpos _) (by omega) (by decide) ?_ ?_
  · rw [hquotient, zpow_neg, ← one_div]
    exact one_div_le_one_div_of_le hvalue hlt.le
  · rw [hquotient, div_lt_iff₀ hvalue]
    linarith [hge, zpow_zero (2 : ℚ), zpow_one (2 : ℚ)]

theorem fmul_normalWithin (nan : Word) {v w : Word} {a b c d : Int} (hv : normalWithin a b v) (hw : normalWithin c d w)
    (hlo : -1022 ≤ a + c) (hhi : b + d ≤ 1020) : normalWithin (a + c) (b + d + 2) (fmul nan v w) := by
  obtain ⟨m, e, rfl, hm, hmlo, hmhi⟩ := hv
  obtain ⟨n, f, rfl, hn, hnlo, hnhi⟩ := hw
  obtain ⟨hmge, hmlt⟩ := normalWithin_bounds hm hmlo hmhi
  obtain ⟨hnge, hnlt⟩ := normalWithin_bounds hn hnlo hnhi
  have hproduct : ((m * n) <<< (e + f).toNat : Nat) / ((1 <<< (-(e + f)).toNat : Nat) : ℚ) =
      normalValue m e * normalValue n f := by
    rw [shiftLeft_div_shiftLeft, normalValue, normalValue, ← two_zpow_mul rfl]
    push_cast
    ring
  rw [fmul_of_fin nan (f64Unpack_f64Normal hm) (f64Unpack_f64Normal hn), f64OfScaled]
  have hmpos : (0 : ℚ) < normalValue m e := lt_of_lt_of_le (by positivity) hmge
  have hnpos : (0 : ℚ) < normalValue n f := lt_of_lt_of_le (by positivity) hnge
  refine f64Round_normalWithin (shiftLeft_pos one_pos _) hlo (by omega) ?_ ?_
  · rw [hproduct, ← two_zpow_mul rfl]
    gcongr
  · rw [hproduct, ← two_zpow_mul (show b + 1 + (d + 1) = b + d + 2 by ring)]
    gcongr

/-- Dividing a normal number by itself is exact. -/
theorem fdiv_self_of_normal (nan : Word) {m : Nat} {e : Int} (h : isNormal m e) :
    fdiv nan (f64Normal m e) (f64Normal m e) = f64One := by
  have hpos : 0 < m := pos_of_isNormal h
  rw [fdiv_of_fin nan (f64Unpack_f64Normal h) (f64Unpack_f64Normal h) hpos.ne', bne_self_eq_false]
  exact f64Round_one (shiftLeft_pos hpos _)

/-- Adding a normal number to `+0.0` is exact. -/
theorem fadd_zero_of_normal (nan : Word) {m : Nat} {e : Int} (h : isNormal m e) (he : e ≤ 970) :
    fadd nan 0#64 (f64Normal m e) = f64Normal m e := by
  obtain ⟨-, -, he', -⟩ := id h
  have hpos : 0 < m <<< (e - -1074).toNat := shiftLeft_pos (pos_of_isNormal h) _
  have hexact : (e - -1074).toNat = e + 1074 := by omega
  rw [fadd_of_fin nan f64Unpack_zero (f64Unpack_f64Normal h), min_eq_left he', Nat.zero_shiftLeft, Nat.zero_add,
    if_neg hpos.ne', f64OfScaled]
  refine f64Round_of_eq_normalValue (shiftLeft_pos one_pos _) h he ?_
  rw [shiftLeft_div_shiftLeft, normalValue, Nat.shiftLeft_eq]
  rw [Nat.cast_mul, Nat.cast_pow, Nat.cast_ofNat, ← zpow_natCast, hexact, Nat.cast_one, div_one, mul_assoc,
    two_zpow_mul (by ring)]

/-- `+0.0` is the sum of itself. -/
theorem fadd_zero_zero (nan : Word) : fadd nan 0#64 0#64 = 0#64 := by
  rw [fadd_of_fin nan f64Unpack_zero f64Unpack_zero, Nat.zero_shiftLeft, if_pos rfl]

theorem fmul_one_zero (nan : Word) : fmul nan f64One 0#64 = 0#64 := by
  rw [fmul_of_fin nan f64Unpack_one f64Unpack_zero, Nat.mul_zero, f64OfScaled, Nat.zero_shiftLeft, bne_self_eq_false,
    f64Round_zero]

/-- `log2_f64` is exact on `1.0 = 2^0` (R121). -/
theorem log2F64_one : log2F64 f64One = 0#64 := by
  rw [log2F64, f64Unpack_one]
  decide

/-! One key: `q / total` is `1.0` whatever the count and the domain, both in the range of normal numbers. -/

theorem entropyRef_of_one_key {d : BitVec 63} {k c : Word} (hd : d ≠ 0) (hc : c ≠ 0) :
    entropyRef d [(k, c)] = 0x8000000000000000#64 := by
  have hscale : normalWithin (-64) 1 (fdiv (entNan d [(k, c)]) f64One (f64OfNat d.toNat)) :=
    fdiv_one_normalWithin _ (by decide) (f64OfNat_normalWithin (toNat_pos_of_ne_zero hd) d.isLt (by decide))
  have hcount : normalWithin 0 64 (f64OfNat c.toNat) :=
    f64OfNat_normalWithin (toNat_pos_of_ne_zero hc) c.isLt (by decide)
  obtain ⟨m, e, hq, hnormal, -, he⟩ := fmul_normalWithin (entNan d [(k, c)]) hcount hscale (by decide) (by decide)
  have hzero : f64OfNat 0 = 0#64 := f64Round_zero 1
  simp only [entropyRef, List.map_cons, List.map_nil, List.foldl_cons, List.foldl_nil, hq, hzero,
    fadd_zero_of_normal _ hnormal (by omega), fdiv_self_of_normal _ hnormal, log2F64_one, fmul_one_zero,
    fadd_zero_zero]
  decide

/-- A one-key table fits every domain, so the score is asked of `ENT_NUMERICS`. -/
theorem length_one_le_domain {d : BitVec 63} (hd : d ≠ 0) (k c : Word) : [(k, c)].length ≤ d.toNat :=
  toNat_pos_of_ne_zero hd

/-- Settles O48. -/
theorem oneKeyScoresNegativeZero : Obligations.OneKeyScoresNegativeZero := by
  intro s k c hv hnumerics hn hd hc ht
  have hfits : s.ent.t.length ≤ s.ent.d.toNat := ht ▸ length_one_le_domain hd k c
  rw [exec_entEntropy, entScore_of_scored hv hfits hn, ht]
  simp only [entropyWord, hnumerics, entropyRef_of_one_key hd hc]

/-! A domain of size 1: the efficiency is `-0.0 / +0.0`. -/

/-- `nanOf` makes a NaN of every word. -/
theorem isNanWord_nanOf (raw : Word) : isNanWord (nanOf raw) := by
  have hexponent : (raw ||| 0x7ff0000000000000#64).extractLsb' 52 11 = 0x7ff#11 := by
    rw [BitVec.extractLsb'_or]
    exact BitVec.or_allOnes
  rw [nanOf]
  generalize raw ||| 0x7ff0000000000000#64 = w at hexponent ⊢
  split
  · next hfraction =>
    rw [isNanWord, BitVec.extractLsb'_or, BitVec.extractLsb'_or, hexponent, hfraction]
    decide
  · next hfraction => exact ⟨hexponent, hfraction⟩

theorem efficiencyRef_of_domain_one {k c : Word} (hc : c ≠ 0) :
    efficiencyRef 1 [(k, c)] = entNan 1 [(k, c)] := by
  have hone : f64OfNat (1 : BitVec 63).toNat = f64One := f64Round_one one_pos
  rw [efficiencyRef, entropyRef_of_one_key (by decide) hc, hone, log2F64_one, fdiv, f64Unpack_negZero, f64Unpack_zero]
  rfl

/-- Settles O49. -/
theorem domainOneEfficiencyIsNan : Obligations.DomainOneEfficiencyIsNan := by
  intro s k c hv hnumerics hn hd hc ht
  have hfits : s.ent.t.length ≤ s.ent.d.toNat := ht ▸ length_one_le_domain (hd ▸ by decide) k c
  refine ⟨_, isNanWord_nanOf (Config.nanBits 1 [(k, c)]), ?_⟩
  rw [exec_entEfficiency, entScore_of_scored hv hfits hn, ht, hd]
  simp only [efficiencyWord, hnumerics, efficiencyRef_of_domain_one hc, entNan]

end Sys2Proof.Machine
end
